-- ==== Sys2Proof/Word.lean ====
section
/-! DEFINITION. The word types of RAPIDHASH-CORE (00_scope R11): every register is 64 bits wide, IBUF holds bytes, the 32-bit reader yields half words. -/

namespace Sys2Proof

/-- A `u64` of R11: the width of every register (10_state, opening paragraph). -/
abbrev Word := BitVec 64

/-- A `u32` of R11, what `read_u32` yields (R130). -/
abbrev Half := BitVec 32

/-- One byte of IBUF (R34, R60). -/
abbrev Byte := BitVec 8

end Sys2Proof
end

