-- ==== Sys2Proof/Config.lean ====
section
/-! DEFINITION. What a build fixes (00_scope R9, 20_memory R62) and the free values the spec leaves open (R34, R284). -/

namespace Sys2Proof

/-- The build-time parameters of R9 and the window base of R62.
LATENCY (R9, R290) has no value and no law: it is the place of the completion among the moves of `Machine.State.agenda`. -/
structure Build where
  /-- `SECRET0`, the source's `secret[0]`. -/
  secret0 : Word
  /-- `SECRET1`, the source's `secret[1]`. -/
  secret1 : Word
  /-- `SECRET2`, the source's `secret[2]`. -/
  secret2 : Word
  /-- `DEFAULT_SEED`. -/
  defaultSeed : Word
  /-- `BUF_BYTES`, the size of IBUF. -/
  bufBytes : Nat
  /-- `BASE`, the address of the host-port window in the host system (R62). -/
  base : Nat
  deriving DecidableEq, Repr

/-- The defaults of R9. DESIGN CHOICE (log entry 3): BASE, which the spec leaves to the platform, is 0 here. -/
def Build.default : Build where
  secret0 := 0x2d358dccaa6c78a5
  secret1 := 0x8bb84b93962eacc9
  secret2 := 0x4b33a62ed433d4a3
  defaultSeed := 0xbdd89aa982704029
  bufBytes := 4096
  base := 0

/-- Free value (log entry 5): what the `n`-th draw gives a host read of a register that R284 calls unspecified.
No body, so nothing can be proved of its value. -/
opaque Config.freeWord (n : Nat) : Word

/-- Free value (log entry 5): the byte that draw `n` gives for an undefined IBUF byte (R34).
`site` tells apart the reads one command makes of one byte and `offset` names the byte, so no two reads are forced to agree. -/
opaque Config.freeByte (n site offset : Nat) : Byte

end Sys2Proof
end

