-- ==== Sys2Proof/Machine/Mixing.lean ====
section
/-! DEFINITION. The pure datapath functions on words: mum and mix (40_mixing), evolve_seed (42_seed_evolution), finish (44_finalization), combine32 (41_readers R132). -/

namespace Sys2Proof.Machine

/-- `mum(a, b)`, R120: the low and the high half of the exact 128-bit product. -/
def mum (a b : Word) : Word × Word :=
  (BitVec.ofNat 64 (a.toNat * b.toNat), BitVec.ofNat 64 (a.toNat * b.toNat / 2 ^ 64))

/-- `mix(a, b)`, R122: the two halves of the product folded by XOR. -/
def mix (a b : Word) : Word := (mum a b).1 ^^^ (mum a b).2

/-- `evolve_seed(seed, n)`, R140. -/
def evolveSeed (bld : Build) (seed n : Word) : Word :=
  seed ^^^ mix (seed ^^^ bld.secret0) bld.secret1 ^^^ n

/-- `finish(a, b, n)`, R180. -/
def finalize (bld : Build) (a b n : Word) : Word :=
  mix (a ^^^ bld.secret0 ^^^ n) (b ^^^ bld.secret1)

/-- `combine32(hi32, lo32)`, R132. -/
def combine32 (hi lo : Half) : Word := (hi.setWidth 64 <<< 32) ||| lo.setWidth 64

end Sys2Proof.Machine
end

