-- ==== Sys2Proof/Machine/State.lean ====
section
/-! DEFINITION. The state of RAPIDHASH-CORE as plain data (10_state R20 to R41), its reset value (70_reset_and_hazards R270), the moves the outside world makes (R280), and the reasons a step can stop. -/

namespace Sys2Proof.Machine

/-- The two FSM states, R21. -/
inductive Fsm where
  /-- No command is pending. -/
  | idle
  /-- A command is accepted and not completed: STATUS.BUSY reads 1. -/
  | exec
  deriving DecidableEq, Repr

/-- The model fault that the spec gives the machine's state (R40, R241): a record, not a stop. -/
inductive ModelFault where
  /-- A completion step read an IBUF byte that nothing has written since reset (R34). -/
  | ibufUndefined
  deriving DecidableEq, Repr

/-- The error codes of R240 that something raises. -/
inductive ErrorCode where
  /-- 1, ILLEGAL_CMD. -/
  | illegalCmd
  /-- 2, CHUNK_RANGE. -/
  | chunkRange
  /-- 3, READ_BOUNDS. -/
  | readBounds
  /-- 4, BUSY_ACCESS. -/
  | busyAccess
  /-- 5, INTERNAL. -/
  | internal
  /-- 6, BAD_ACCESS. -/
  | badAccess
  deriving DecidableEq, Repr

/-- One step of an agent or of the platform, R280. Addresses are the host system's, so an offset is the address less BASE (R62). -/
inductive Move where
  /-- `HostWrite`: the host writes the `width` low bytes of `value` at `addr` (R282). -/
  | hostWrite (addr width : Nat) (value : Word)
  /-- `HostRead`: the host reads `width` bytes at `addr` (R282). -/
  | hostRead (addr width : Nat)
  /-- `Complete`: the datapath completes the pending command (R281). -/
  | complete
  /-- `Reset`: the platform asserts reset (R271). -/
  | reset
  deriving DecidableEq, Repr

/-- The mapped registers of R41. -/
inductive Reg where
  | id | param | cmd | status
  | seed | accA | accB | size
  | arg0 | arg1 | chunkOff | chunkLen
  | res0 | res1
  | secret0 | secret1 | secret2 | dseed
  deriving DecidableEq, Repr

/-- The state record of R40, the build it runs on (R9), and the model's own fields `agenda`, `returned` and `draws`. -/
structure State where
  /-- The parameters of the build (R9). No step changes them. Registers ID, PARAM, SECRET0 to SECRET2 and DSEED show them (R22, R23, R36). -/
  build : Build
  /-- The FSM state, R21. -/
  fsm : Fsm
  /-- The pending command latch, R37. -/
  pend : Option Word
  /-- SEED, R31. -/
  seed : Word
  /-- ACC_A, R31. -/
  accA : Word
  /-- ACC_B, R31. -/
  accB : Word
  /-- SIZE, R31. -/
  size : Word
  /-- ARG0, R32. -/
  arg0 : Word
  /-- ARG1, R32. -/
  arg1 : Word
  /-- CHUNK_OFF, R33. -/
  chunkOff : Word
  /-- CHUNK_LEN, R33. -/
  chunkLen : Word
  /-- RES0, R35. -/
  res0 : Word
  /-- RES1, R35. -/
  res1 : Word
  /-- STATUS.OVF, R28. -/
  ovf : Bool
  /-- STATUS.ERR, R29. -/
  err : BitVec 4
  /-- STATUS.BAND, R30. -/
  band : BitVec 4
  /-- IBUF, R34: (index, byte) pairs, indexes strictly rising. An index that is not listed is undefined (log entry 13). -/
  ibuf : List Host.Cell
  /-- The model fault of R40, R241. -/
  modelFault : Option ModelFault
  /-- The moves still to come, first one next: the input of the outside world and the interleaving of the two agents (log entry 1). -/
  agenda : List Move
  /-- What the host's reads have returned, newest first (log entry 4). -/
  returned : List Word
  /-- How many draws have been taken (log entry 5). -/
  draws : Nat
  deriving DecidableEq, Repr

/-- Why a step stops with a fault. -/
inductive Fault where
  /-- Raised by a host access whose address lies outside the block's window of R62: there is no such address in the block.
  Safe: the access is none of the block's (log entry 7). -/
  | outsideWindow
  /-- Raised by a completion in EXEC with an empty latch, which R21 and R37 rule out.
  Safe: no reachable state is in it, and the model says nothing of it (log entry 8). -/
  | noPendingCommand
  deriving DecidableEq, Repr

/-- Why a step is refused. -/
inductive Refusal where
  /-- Raised by an arm of `exec` that has no meaning yet. Safe: nothing is claimed. No arm raises it now. -/
  | notModelled (mnemonic : String)
  /-- Raised by a completion whose latched word is no command, which acceptance rules out (R243).
  Safe: no reachable state is in it (log entry 8). -/
  | illegalPending
  deriving DecidableEq, Repr

/-- The state of R270 for a given build, with the model's own fields given. -/
def State.resetWith (build : Build) (agenda : List Move) (returned : List Word) (draws : Nat) : State where
  build := build
  fsm := .idle
  pend := none
  seed := build.defaultSeed
  accA := 0
  accB := 0
  size := 0
  arg0 := 0
  arg1 := 0
  chunkOff := 0
  chunkLen := 0
  res0 := 0
  res1 := 0
  ovf := false
  err := 0
  band := 0
  ibuf := []
  modelFault := none
  agenda := agenda
  returned := returned
  draws := draws

/-- The machine right after reset (R270), of the build with the spec's default parameters (R9) and no move to come. -/
def State.reset : State := State.resetWith Build.default [] [] 0

end Sys2Proof.Machine
end

