-- ==== Sys2Proof/Machine/Ops.lean ====
section
/-! DEFINITION. The named operations on the state: IBUF reads and writes, the little-endian rule, register reads and writes, `raise Error` and its clearing (the block's whole exception entry and return), acceptance into and retirement from EXEC, draws. -/

namespace Sys2Proof.Machine

open Host (Outcome)

/-! ### IBUF (10_state R34, 20_memory R60, R64) -/

/-- The byte at an index, none where it is undefined (R34). -/
def memGet (m : List Host.Cell) (k : Nat) : Option Byte :=
  match m with
  | [] => none
  | (j, b) :: rest => if j = k then some b else memGet rest k

/-- Make the byte at an index defined, keeping the indexes strictly rising. -/
def memSet (m : List Host.Cell) (k : Nat) (v : Byte) : List Host.Cell :=
  match m with
  | [] => [(k, v)]
  | (j, b) :: rest =>
    if k < j then (k, v) :: (j, b) :: rest
    else if k = j then (k, v) :: rest
    else (j, b) :: memSet rest k v

/-- Write consecutive bytes from an index on. -/
def memSetBytes (m : List Host.Cell) (k : Nat) (bs : List Byte) : List Host.Cell :=
  match bs with
  | [] => m
  | b :: rest => memSetBytes (memSet m k b) (k + 1) rest

/-- All indexes of a cell list are at least `lo` and strictly rise. -/
def memRises (lo : Nat) (m : List Host.Cell) : Bool :=
  match m with
  | [] => true
  | (j, _) :: rest => decide (lo ≤ j) && memRises (j + 1) rest

/-- The canonical form of IBUF: indexes strictly rise and lie below BUF_BYTES (R60).
An unlisted index is undefined, and no listed entry is undefined, so equal contents are equal lists. -/
def memWf (bufBytes : Nat) (m : List Host.Cell) : Bool :=
  memRises 0 m && m.all (fun c => decide (c.1 < bufBytes))

/-- The value of bytes read little-endian, `Σ byte_i * 2^(8i)` (R14, R63, R64). -/
def leNat : List Byte → Nat
  | [] => 0
  | b :: rest => b.toNat + 256 * leNat rest

/-- The `n` low bytes of a value, `v[8i+7 : 8i]` for i < n (R64, R205). -/
def leBytes {w : Nat} (v : BitVec w) (n : Nat) : List Byte :=
  (List.range n).map (fun i => v.extractLsb' (8 * i) 8)

/-! ### Errors (00_scope R15, 60_exceptions R240, R248, R249) -/

/-- The code of an error, R240. -/
def ErrorCode.code : ErrorCode → BitVec 4
  | .illegalCmd => 1
  | .chunkRange => 2
  | .readBounds => 3
  | .busyAccess => 4
  | .internal => 5
  | .badAccess => 6

/-- `raise Error(code)`, R15: the first error since ERR was last cleared is kept, and nothing else changes.
This is the block's whole exception entry (R248): nothing is saved, no mode changes, nothing jumps. -/
def State.raise (e : ErrorCode) (s : State) : State :=
  { s with err := if s.err = 0 then e.code else s.err }

/-- The ERRCLR action of a STATUS write (R27): the block's whole exception return (R249), which restores nothing. -/
def State.clearErr (s : State) : State := { s with err := 0 }

/-! ### Sequencing (10_state R21, R37) -/

/-- Acceptance: `pend <- c ; fsm <- EXEC` (R243). -/
def State.latch (c : Word) (s : State) : State := { s with pend := some c, fsm := .exec }

/-- The end of a completion: `pend <- none ; fsm <- IDLE` (R281). -/
def State.retire (s : State) : State := { s with pend := none, fsm := .idle }

/-- The platform's reset (R271): every state takes its R270 value, and a pending command is abandoned.
The model's own fields stay (log entry 6): they are the outside world's and the draws', not the block's. -/
def State.resetAll (s : State) : State := State.resetWith s.build s.agenda s.returned s.draws

/-- The first move is done. -/
def State.popMove (s : State) : State := { s with agenda := s.agenda.tail }

/-- A host read returns a value (R282). -/
def State.give (v : Word) (s : State) : State := { s with returned := v :: s.returned }

/-- A draw is taken if `drawn` says so. -/
def State.drawIf (drawn : Bool) (s : State) : State :=
  { s with draws := if drawn then s.draws + 1 else s.draws }

/-- A completion step has read an undefined IBUF byte if `undefinedRead` says so (a chunk command reads its whole chunk, R164): the model fault is recorded (R34, R241) and a draw taken.
The fault is never cleared but by reset (log entry 6). -/
def State.noteRead (undefinedRead : Bool) (s : State) : State :=
  { s with
    modelFault := if undefinedRead then some .ibufUndefined else s.modelFault
    draws := if undefinedRead then s.draws + 1 else s.draws }

/-! ### Register writes by commands (10_state R31, R35) -/

/-- Write the four streaming registers (R31). -/
def State.setStream (seed accA accB size : Word) (s : State) : State :=
  { s with seed := seed, accA := accA, accB := accB, size := size }

/-- Write RES0 and RES1 (R35). -/
def State.setResult (res0 res1 : Word) (s : State) : State :=
  { s with res0 := res0, res1 := res1 }

/-- A host write of one of the eight read/write registers (R41, R282). Any other register keeps its value: read-only registers ignore writes, and CMD and STATUS have writes of their own. -/
def State.writeReg (r : Reg) (v : Word) (s : State) : State :=
  match r with
  | .seed => { s with seed := v }
  | .accA => { s with accA := v }
  | .accB => { s with accB := v }
  | .size => { s with size := v }
  | .arg0 => { s with arg0 := v }
  | .arg1 => { s with arg1 := v }
  | .chunkOff => { s with chunkOff := v }
  | .chunkLen => { s with chunkLen := v }
  | .id => s
  | .param => s
  | .cmd => s
  | .status => s
  | .res0 => s
  | .res1 => s
  | .secret0 => s
  | .secret1 => s
  | .secret2 => s
  | .dseed => s

/-- Store bytes into IBUF from an index on (R64). -/
def State.storeBytes (k : Nat) (bs : List Byte) (s : State) : State :=
  { s with ibuf := memSetBytes s.ibuf k bs }

/-! ### Outcomes -/

/-- Apply `f` to the next state of an outcome, leaving stops as they are. -/
def onNext (f : State → State) : Outcome State Fault Refusal → Outcome State Fault Refusal
  | .next s => .next (f s)
  | .fault r => .fault r
  | .refused r => .refused r

/-- The next state of an outcome, none where it stops. -/
def nextState : Outcome State Fault Refusal → Option State
  | .next s => some s
  | .fault _ => none
  | .refused _ => none

end Sys2Proof.Machine
end

