-- ==== Sys2Proof/Syntax.lean ====
section
/-! DEFINITION. The commands of RAPIDHASH-CORE: one constructor per legal command word of 30_encoding R97, which is one per row of opcode_table.json. A command word has no operands (R95). -/

namespace Sys2Proof

/-- The 18 legal commands (R97). -/
inductive Instr where
  /-- `NOP`, R220. -/
  | nop
  /-- `INIT`, seed from ARG0, R201. -/
  | init
  /-- `INIT.DS`, seed from DEFAULT_SEED, R201. -/
  | initDs
  /-- `WRITE`, R202. -/
  | write
  /-- `WRITEI.8`, R205. -/
  | writei8
  /-- `WRITEI.16`, R205. -/
  | writei16
  /-- `WRITEI.32`, R205. -/
  | writei32
  /-- `WRITEI.64`, R205. -/
  | writei64
  /-- `WRITEI.128`, R205. -/
  | writei128
  /-- `FINISH`, R207. -/
  | finish
  /-- `HASH`, seed from ARG0, R190. -/
  | hash
  /-- `HASH.DS`, seed from DEFAULT_SEED, R190. -/
  | hashDs
  /-- `MUM`, R221. -/
  | mum
  /-- `MIX`, R222. -/
  | mix
  /-- `EVOLVE`, R223. -/
  | evolve
  /-- `READ32`, R224. -/
  | read32
  /-- `READ64`, R225. -/
  | read64
  /-- `CORE`, R226. -/
  | core
  deriving DecidableEq, Repr

end Sys2Proof
end

