-- ==== Sys2Proof/Machine/Operands.lean ====
section
/-! DEFINITION. The operand forms of the commands (30_encoding R92 to R96): the chunk in IBUF, the integer of WRITEI, the seed source, and the checks that acceptance makes of them (60_exceptions R243). -/

namespace Sys2Proof.Machine

/-- The byte slice a command folds or reads (`data` of R14, R61).
A cell is `none` where the IBUF byte is undefined (R34). `draw` numbers the draws of the command that reads it. -/
structure Chunk where
  /-- The bytes, offset 0 first. -/
  cells : List (Option Byte)
  /-- The draw that gives this command's undefined bytes (log entry 5). -/
  draw : Nat
  deriving DecidableEq, Repr

/-- `len`, R14. -/
def Chunk.len (c : Chunk) : Nat := c.cells.length

/-- Some byte of the chunk is undefined. -/
def Chunk.hasUndefined (c : Chunk) : Bool := c.cells.any Option.isNone

/-- The chunk in IBUF, `data[o] = IBUF[CHUNK_OFF + o]` for o < CHUNK_LEN (R14, R61).
An index at or above BUF_BYTES, which acceptance rules out (R243), is never listed and so counts as undefined (log entry 9). -/
def chunkOf (s : State) : Chunk where
  cells := (List.range s.chunkLen.toNat).map (fun o => memGet s.ibuf (s.chunkOff.toNat + o))
  draw := s.draws

/-- The bytes WRITEI folds, R205: the `n` low bytes of ARG1:ARG0, little-endian. All are defined. -/
def integerChunk (n : Nat) (s : State) : Chunk where
  cells := (leBytes (s.arg1 ++ s.arg0) n).map some
  draw := s.draws

/-- `n = 2^W`, R93. -/
def integerBytes (w : Nat) : Nat := 2 ^ w

/-- The seed source of INIT and HASH, R92: DEFAULT_SEED where D = 1, else ARG0. -/
def seedSource (d : Bool) (s : State) : Word := if d then s.build.defaultSeed else s.arg0

/-- The chunk commands, which read a chunk of IBUF and whose chunk is checked at acceptance (R96, R243). -/
def usesChunk : Instr → Bool
  | .nop => false
  | .init => false
  | .initDs => false
  | .write => true
  | .writei8 => false
  | .writei16 => false
  | .writei32 => false
  | .writei64 => false
  | .writei128 => false
  | .finish => false
  | .hash => true
  | .hashDs => true
  | .mum => false
  | .mix => false
  | .evolve => false
  | .read32 => true
  | .read64 => true
  | .core => true

/-- The width of the reader a command exposes, whose offset ARG0 is checked at acceptance (R224, R225, R243); 0 for the others. -/
def readWidth : Instr → Nat
  | .nop => 0
  | .init => 0
  | .initDs => 0
  | .write => 0
  | .writei8 => 0
  | .writei16 => 0
  | .writei32 => 0
  | .writei64 => 0
  | .writei128 => 0
  | .finish => 0
  | .hash => 0
  | .hashDs => 0
  | .mum => 0
  | .mix => 0
  | .evolve => 0
  | .read32 => 4
  | .read64 => 8
  | .core => 0

/-- `CHUNK_OFF + CHUNK_LEN > BUF_BYTES` in exact arithmetic (R240, code 2). -/
def chunkOutOfRange (s : State) : Bool :=
  decide (s.build.bufBytes < s.chunkOff.toNat + s.chunkLen.toNat)

/-- `ARG0 + w > CHUNK_LEN` in exact arithmetic (R240, code 3). -/
def readOutOfBounds (w : Nat) (s : State) : Bool :=
  decide (s.chunkLen.toNat < s.arg0.toNat + w)

/-- The operand checks of acceptance in the order of R243, none where they all pass. -/
def operandCheck (i : Instr) (s : State) : Option ErrorCode :=
  if usesChunk i && chunkOutOfRange s then some .chunkRange
  else if readWidth i != 0 && readOutOfBounds (readWidth i) s then some .readBounds
  else none

end Sys2Proof.Machine
end

