-- ==== Sys2Proof/Machine/Readers.lean ====
section
/-! DEFINITION. The unaligned little-endian readers of a chunk (41_readers R130 to R135). Each checks its bound and answers none where the spec raises INTERNAL. -/

namespace Sys2Proof.Machine

/-- One byte of the chunk, zero-extended nowhere. An undefined byte is a free value (R34): `site` numbers the reads that one command makes of one byte, so that no two reads need agree. -/
def Chunk.byteAt (c : Chunk) (site o : Nat) : Byte :=
  match c.cells[o]? with
  | some (some b) => b
  | some none => Config.freeByte c.draw site o
  | none => Config.freeByte c.draw site o

/-- `MemRead` of `n` bytes at a chunk offset (R14). -/
def Chunk.memRead (c : Chunk) (site o n : Nat) : Nat :=
  leNat ((List.range n).map (fun i => c.byteAt site (o + i)))

/-- The byte read `data[o]`, R135, zero-extended to 64 bits. -/
def Chunk.rd8 (c : Chunk) (site o : Nat) : Option Word :=
  if c.len < o + 1 then none else some (BitVec.ofNat 64 (c.memRead site o 1))

/-- `read_u32(data, o)`, R130. -/
def Chunk.rd32 (c : Chunk) (site o : Nat) : Option Half :=
  if c.len < o + 4 then none else some (BitVec.ofNat 32 (c.memRead site o 4))

/-- `read_u64(data, o)`, R131. -/
def Chunk.rd64 (c : Chunk) (site o : Nat) : Option Word :=
  if c.len < o + 8 then none else some (BitVec.ofNat 64 (c.memRead site o 8))

end Sys2Proof.Machine
end

