-- ==== Sys2Proof/Machine/Compress.lean ====
section
/-! DEFINITION. The length-banded compression engine, the source's `core` (43_compression R150 to R166). Every function answers none where a reader asks for a byte outside the chunk, the INTERNAL case of 60_exceptions R246. Read sites: in bands 1 to 4 the reads are numbered in the order of the formula; for longer chunks 0 is the bulk stage, 1 the tail rounds, 2 the absorption.

UNVERIFIED (log entry 10): the spec takes the lane initialisation, the lane step, the tail rounds and the bulk guard from general knowledge. -/

namespace Sys2Proof.Machine

/-- `band(len)`, R162. -/
def bandClass (n : Nat) : Nat :=
  if n = 0 then 0
  else if n ≤ 3 then 1
  else if n ≤ 7 then 2
  else if n ≤ 15 then 3
  else if n = 16 then 4
  else if n ≤ 32 then 5
  else if n ≤ 48 then 6
  else if n ≤ 95 then 7
  else 8

/-- The three running values of the bulk stage (R19, R155). -/
structure Lanes where
  seed : Word
  see1 : Word
  see2 : Word
  deriving DecidableEq, Repr

/-- Band 1, R152: the word XORed into `a`. -/
def band1Word (c : Chunk) : Option Word := do
  let first ← c.rd8 0 0
  let mid ← c.rd8 1 (c.len / 2)
  let last ← c.rd8 2 (c.len - 1)
  return (first <<< 56) ||| (mid <<< 32) ||| last

/-- The `delta` of bands 2 to 4: 0 below 8 bytes (R153), 4 from 8 bytes on (R154). -/
def bandDelta (n : Nat) : Nat := if 8 ≤ n then 4 else 0

/-- Bands 2 to 4, R153 and R154: the words XORed into `a` and `b`. -/
def band234Words (c : Chunk) : Option (Word × Word) := do
  let aHi ← c.rd32 0 0
  let aLo ← c.rd32 1 (c.len - 4)
  let bHi ← c.rd32 2 (bandDelta c.len)
  let bLo ← c.rd32 3 (c.len - 4 - bandDelta c.len)
  return (combine32 aHi aLo, combine32 bHi bLo)

/-- The band step for chunks of at most 16 bytes, R151 to R154: new `a` and `b`. -/
def shortStep (c : Chunk) (a b : Word) : Option (Word × Word) :=
  if c.len = 0 then some (a, b)
  else if c.len < 4 then do
    let x ← band1Word c
    return (a ^^^ x, b)
  else do
    let (x, y) ← band234Words c
    return (a ^^^ x, b ^^^ y)

/-- One lane step, R156: `mix(rd64(q) ^ secret, rd64(q + 8) ^ lane)`. -/
def laneStep (c : Chunk) (q : Nat) (secret lane : Word) : Option Word := do
  let lo ← c.rd64 0 q
  let hi ← c.rd64 0 (q + 8)
  return mix (lo ^^^ secret) (hi ^^^ lane)

/-- Three lane steps over 48 bytes from `p` on, one in each lane (R156, R157). -/
def round48 (bld : Build) (c : Chunk) (p : Nat) (l : Lanes) : Option Lanes := do
  let seed ← laneStep c p bld.secret0 l.seed
  let see1 ← laneStep c (p + 16) bld.secret1 l.see1
  let see2 ← laneStep c (p + 32) bld.secret2 l.see2
  return ⟨seed, see1, see2⟩

/-- One super-block of 96 bytes, R156: six lane steps, the last three reading what the first three wrote. -/
def superBlock (bld : Build) (c : Chunk) (p : Nat) (l : Lanes) : Option Lanes := do
  let half ← round48 bld c p l
  round48 bld c (p + 48) half

/-- `q` super-blocks from `p` on. The bulk loop of R156 runs `floor(len / 96)` times. -/
def bulkLoop (bld : Build) (c : Chunk) : Nat → Nat → Lanes → Option Lanes
  | 0, _, l => some l
  | q + 1, p, l => do
    let next ← superBlock bld c p l
    bulkLoop bld c q (p + 96) next

/-- The fold of the lanes, R158. -/
def foldLanes (l : Lanes) : Word := l.seed ^^^ l.see1 ^^^ l.see2

/-- Where the bulk stage leaves the position `p`: after the super-blocks and the 48-byte round, if any (R156, R157). -/
def bulkEnd (n : Nat) : Nat :=
  if 48 < n then 96 * (n / 96) + (if 48 ≤ n % 96 then 48 else 0) else 0

/-- The bulk stage, R155 to R158, which runs only for chunks of more than 48 bytes: the new seed. -/
def bulkStage (bld : Build) (c : Chunk) (seed : Word) : Option Word :=
  if 48 < c.len then do
    let l ← bulkLoop bld c (c.len / 96) 0 ⟨seed, seed, seed⟩
    if 48 ≤ c.len % 96 then do
      let l' ← round48 bld c (96 * (c.len / 96)) l
      return foldLanes l'
    else
      return foldLanes l
  else some seed

/-- The tail rounds on the `i` bytes left from `p` on, R159. -/
def tailRounds (bld : Build) (c : Chunk) (p i : Nat) (seed : Word) : Option Word :=
  if 16 < i then do
    let lo ← c.rd64 1 p
    let hi ← c.rd64 1 (p + 8)
    let once := mix (lo ^^^ bld.secret2) (hi ^^^ seed ^^^ bld.secret1)
    if 32 < i then do
      let lo' ← c.rd64 1 (p + 16)
      let hi' ← c.rd64 1 (p + 24)
      return mix (lo' ^^^ bld.secret2) (hi' ^^^ once)
    else
      return once
  else some seed

/-- Chunks of more than 16 bytes, R155 to R160: the bulk stage, the tail rounds and the absorption of the last 16 bytes; new `a`, `b` and seed. -/
def longStep (bld : Build) (c : Chunk) (a b seed : Word) : Option (Word × Word × Word) := do
  let bulk ← bulkStage bld c seed
  let seed' ← tailRounds bld c (bulkEnd c.len) (c.len - bulkEnd c.len) bulk
  let x ← c.rd64 2 (c.len - 16)
  let y ← c.rd64 2 (c.len - 8)
  return (a ^^^ x, b ^^^ y, seed')

/-- The band step of every length, R150: new `a`, `b` and seed. -/
def bandStep (bld : Build) (c : Chunk) (a b seed : Word) : Option (Word × Word × Word) :=
  if c.len ≤ 16 then do
    let (a', b') ← shortStep c a b
    return (a', b', seed)
  else longStep bld c a b seed

/-- The final step, R161: `a ^= S[1] ; b ^= seed ; (a, b) = mum(a, b)`. -/
def finalStep (bld : Build) (r : Word × Word × Word) : Word × Word × Word :=
  let (a, b, seed) := r
  let (lo, hi) := mum (a ^^^ bld.secret1) (b ^^^ seed)
  (lo, hi, seed)

/-- `core(a, b, seed, data)`, R150: new `a`, `b` and seed, or none in the INTERNAL case (R246). -/
def compress (bld : Build) (c : Chunk) (a b seed : Word) : Option (Word × Word × Word) := do
  let r ← bandStep bld c a b seed
  return finalStep bld r

end Sys2Proof.Machine
end

