-- ==== Sys2Proof/Machine/Flags.lean ====
section
/-! DEFINITION. The STATUS register and its fields (10_state R25 to R30, R39): BUSY, OVF, ERR and BAND, the effect of a STATUS write, and the size addition that sets OVF (46_streaming R202, R204). -/

namespace Sys2Proof.Machine

/-- STATUS.BUSY, R21: 1 exactly in EXEC. -/
def busy (s : State) : Bool := decide (s.fsm = .exec)

/-- The STATUS word of the four fields, R25; every other bit reads 0. -/
def statusWord (isBusy isOvf : Bool) (err band : BitVec 4) : Word :=
  (BitVec.ofBool isBusy).setWidth 64
    ||| ((BitVec.ofBool isOvf).setWidth 64 <<< 1)
    ||| (err.setWidth 64 <<< 4)
    ||| (band.setWidth 64 <<< 8)

/-- STATUS as it stands, R25. -/
def statusOf (s : State) : Word := statusWord (busy s) s.ovf s.err s.band

/-- STATUS as a host read in EXEC gives it, R284: BUSY and ERR exact, OVF and BAND from a draw. -/
def statusDrawn (s : State) : Word :=
  statusWord (busy s) ((Config.freeWord s.draws).getLsbD 1) s.err ((Config.freeWord s.draws).extractLsb' 8 4)

/-- A host write of `w` to STATUS, R25: bit 1 clears OVF, bit 3 (ERRCLR) clears ERR, and nothing else. -/
def statusWrite (w : Word) (s : State) : State :=
  if w.getLsbD 3 then { s with ovf := s.ovf && !w.getLsbD 1 }.clearErr
  else { s with ovf := s.ovf && !w.getLsbD 1 }

/-- The new SIZE after a chunk of `n` bytes, with wrap (R202, R204). -/
def sizeAfter (n : Nat) (s : State) : Word := BitVec.ofNat 64 (s.size.toNat + n)

/-- The new OVF after a chunk of `n` bytes: set when the exact sum reaches 2^64, and sticky (R28, R204). -/
def ovfAfter (n : Nat) (s : State) : Bool := s.ovf || decide (2 ^ 64 ≤ s.size.toNat + n)

/-- Write STATUS.OVF (R28). -/
def State.setOvf (isOvf : Bool) (s : State) : State := { s with ovf := isOvf }

/-- `csr[STATUS].BAND <- band(n)`, R30, R162. -/
def State.setBand (n : Nat) (s : State) : State := { s with band := BitVec.ofNat 4 (bandClass n) }

end Sys2Proof.Machine
end

