-- ==== Sys2Proof/Machine/OneShot.lean ====
section
/-! DEFINITION. The one-shot hash command HASH and HASH.DS (45_oneshot R190 to R193). -/

namespace Sys2Proof.Machine

open Host (Outcome)

/-- R190: the digest of a chunk under a seed. The streaming state is neither read nor written (R191). -/
def hashChunk (seed : Word) (c : Chunk) (s : State) : State :=
  match compress s.build c 0 0 (evolveSeed s.build seed (BitVec.ofNat 64 c.len)) with
  | none => s.raise .internal
  | some (a, b, _) =>
    ((s.setResult (finalize s.build a b (BitVec.ofNat 64 c.len)) 0).setBand c.len).noteRead c.hasUndefined

/-- HASH, R190. -/
def execHash (s : State) : Outcome State Fault Refusal :=
  .next (hashChunk (seedSource false s) (chunkOf s) s)

/-- HASH.DS, R190. -/
def execHashDs (s : State) : Outcome State Fault Refusal :=
  .next (hashChunk (seedSource true s) (chunkOf s) s)

end Sys2Proof.Machine
end

