-- ==== Sys2Proof/Machine/Primitive.lean ====
section
/-! DEFINITION. The primitive and system commands NOP, MUM, MIX, EVOLVE, READ32, READ64 and CORE (47_primitive_commands R220 to R229). -/

namespace Sys2Proof.Machine

open Host (Outcome)

/-- NOP, R220: no effect. -/
def execNop (s : State) : Outcome State Fault Refusal := .next s

/-- MUM, R221. -/
def execMum (s : State) : Outcome State Fault Refusal :=
  .next (s.setResult (mum s.arg0 s.arg1).1 (mum s.arg0 s.arg1).2)

/-- MIX, R222. -/
def execMix (s : State) : Outcome State Fault Refusal := .next (s.setResult (mix s.arg0 s.arg1) 0)

/-- EVOLVE, R223. -/
def execEvolve (s : State) : Outcome State Fault Refusal :=
  .next (s.setResult (evolveSeed s.build s.arg0 s.arg1) 0)

/-- What READ32 and READ64 do with the value of their reader at chunk offset ARG0 (R224, R225).
Where the reader leaves the chunk, which acceptance rules out (R243), only INTERNAL is raised (R130, R246; DEDUCED, log entry 11).
As chunk commands they record the model fault for any undefined byte of the chunk, read or not (R164, R272 step 3; DEDUCED, log entry 12). -/
def readResult (v : Option Word) (s : State) : State :=
  match v with
  | none => s.raise .internal
  | some x => (s.setResult x 0).noteRead (chunkOf s).hasUndefined

/-- READ32, R224: the half word zero-extended. -/
def execRead32 (s : State) : Outcome State Fault Refusal :=
  .next (readResult (((chunkOf s).rd32 0 s.arg0.toNat).map (fun h => h.setWidth 64)) s)

/-- READ64, R225. -/
def execRead64 (s : State) : Outcome State Fault Refusal :=
  .next (readResult ((chunkOf s).rd64 0 s.arg0.toNat) s)

/-- What CORE does with a chunk, R226: the compression engine on the streaming registers, with no seed evolution and no SIZE. -/
def coreChunk (c : Chunk) (s : State) : State :=
  match compress s.build c s.accA s.accB s.seed with
  | none => s.raise .internal
  | some (a, b, seed) => ((s.setStream seed a b s.size).setBand c.len).noteRead c.hasUndefined

/-- CORE, R226. -/
def execCore (s : State) : Outcome State Fault Refusal := .next (coreChunk (chunkOf s) s)

end Sys2Proof.Machine
end

