-- ==== Sys2Proof/Machine/Streaming.lean ====
section
/-! DEFINITION. The streaming commands INIT, WRITE, WRITEI and FINISH (46_streaming R200 to R211): their pseudocode, to which the completion step adds the end of EXEC (70_reset_and_hazards R281). -/

namespace Sys2Proof.Machine

open Host (Outcome)

/-- R201: a new streaming hash from a seed. -/
def startStream (seed : Word) (s : State) : State := s.setStream seed 0 0 0

/-- R202: fold a chunk into the streaming state. The seed evolves by the NEW size (R141).
Where a reader leaves the chunk, only INTERNAL is raised (R246). -/
def foldChunk (c : Chunk) (s : State) : State :=
  match compress s.build c s.accA s.accB (evolveSeed s.build s.seed (sizeAfter c.len s)) with
  | none => s.raise .internal
  | some (a, b, seed) =>
    (((s.setStream seed a b (sizeAfter c.len s)).setOvf (ovfAfter c.len s)).setBand c.len).noteRead c.hasUndefined

/-- INIT, R201. -/
def execInit (s : State) : Outcome State Fault Refusal := .next (startStream (seedSource false s) s)

/-- INIT.DS, R201. -/
def execInitDs (s : State) : Outcome State Fault Refusal := .next (startStream (seedSource true s) s)

/-- WRITE, R202. -/
def execWrite (s : State) : Outcome State Fault Refusal := .next (foldChunk (chunkOf s) s)

/-- WRITEI.8, R205 with W = 0. -/
def execWritei8 (s : State) : Outcome State Fault Refusal :=
  .next (foldChunk (integerChunk (integerBytes 0) s) s)

/-- WRITEI.16, R205 with W = 1. -/
def execWritei16 (s : State) : Outcome State Fault Refusal :=
  .next (foldChunk (integerChunk (integerBytes 1) s) s)

/-- WRITEI.32, R205 with W = 2. -/
def execWritei32 (s : State) : Outcome State Fault Refusal :=
  .next (foldChunk (integerChunk (integerBytes 2) s) s)

/-- WRITEI.64, R205 with W = 3. -/
def execWritei64 (s : State) : Outcome State Fault Refusal :=
  .next (foldChunk (integerChunk (integerBytes 3) s) s)

/-- WRITEI.128, R205 with W = 4. -/
def execWritei128 (s : State) : Outcome State Fault Refusal :=
  .next (foldChunk (integerChunk (integerBytes 4) s) s)

/-- FINISH, R207: the digest of the stream, which it leaves as it is. -/
def execFinish (s : State) : Outcome State Fault Refusal :=
  .next (s.setResult (finalize s.build s.accA s.accB s.size) 0)

end Sys2Proof.Machine
end

