-- ==== Sys2Proof/Machine/Dispatch.lean ====
section
/-! DEFINITION. `exec`: the pseudocode that a completion step runs for each command (70_reset_and_hazards R281), one arm per constructor. -/

namespace Sys2Proof.Machine

open Host (Outcome)

/-- The pseudocode of a command's rule, run on the current state (R281). -/
def exec (i : Instr) (s : State) : Host.Outcome State Fault Refusal :=
  match i with
  | .nop => Sys2Proof.Machine.execNop s
  | .init => Sys2Proof.Machine.execInit s
  | .initDs => Sys2Proof.Machine.execInitDs s
  | .write => Sys2Proof.Machine.execWrite s
  | .writei8 => Sys2Proof.Machine.execWritei8 s
  | .writei16 => Sys2Proof.Machine.execWritei16 s
  | .writei32 => Sys2Proof.Machine.execWritei32 s
  | .writei64 => Sys2Proof.Machine.execWritei64 s
  | .writei128 => Sys2Proof.Machine.execWritei128 s
  | .finish => Sys2Proof.Machine.execFinish s
  | .hash => Sys2Proof.Machine.execHash s
  | .hashDs => Sys2Proof.Machine.execHashDs s
  | .mum => Sys2Proof.Machine.execMum s
  | .mix => Sys2Proof.Machine.execMix s
  | .evolve => Sys2Proof.Machine.execEvolve s
  | .read32 => Sys2Proof.Machine.execRead32 s
  | .read64 => Sys2Proof.Machine.execRead64 s
  | .core => Sys2Proof.Machine.execCore s

end Sys2Proof.Machine
end

