-- ==== Sys2Proof/WellFormed.lean ====
section
/-! DEFINITION. Well-formedness: of the four fields of a command word (30_encoding R90 to R94, R98) and of a build (00_scope R9). `Instr` itself has no ill-formed term: its constructors have no operands (R95). -/

namespace Sys2Proof

/-- The four fields of the one command format, R90. -/
structure Fields where
  /-- OP, bits [7:0]. -/
  op : BitVec 8
  /-- D, bit [8]. -/
  d : BitVec 1
  /-- W, bits [11:9]. -/
  w : BitVec 3
  /-- RSV, bits [63:12]. -/
  rsv : BitVec 52
  deriving DecidableEq, Repr

/-- R91: the twelve opcodes; the other 244 values are reserved. -/
def Fields.opDefined (f : Fields) : Bool :=
  f.op.toNat ≤ 0x05 || (0x10 ≤ f.op.toNat && f.op.toNat ≤ 0x15)

/-- R94: RSV must be 0. -/
def Fields.rsvZero (f : Fields) : Bool := f.rsv == 0

/-- R92: D may be 1 only for INIT (0x01) and HASH (0x05). -/
def Fields.dAllowed (f : Fields) : Bool := f.d == 0 || f.op == 0x01 || f.op == 0x05

/-- R93: W may be non-zero only for WRITEI (0x03). -/
def Fields.wAllowed (f : Fields) : Bool := f.w == 0 || f.op == 0x03

/-- R93: the width codes 5, 6 and 7 are illegal. -/
def Fields.wInRange (f : Fields) : Bool := f.w.toNat ≤ 4

/-- A legal command word: none of R98 (a) to (e) holds of its fields. -/
def Fields.wf (f : Fields) : Bool :=
  f.opDefined && f.rsvZero && f.dAllowed && f.wAllowed && f.wInRange

/-- R9: the three secrets are odd. -/
def Build.secretsOdd (b : Build) : Bool :=
  b.secret0.getLsbD 0 && b.secret1.getLsbD 0 && b.secret2.getLsbD 0

/-- R9: BUF_BYTES is a power of two. -/
def Build.bufPowerOfTwo (b : Build) : Bool := b.bufBytes == 2 ^ Nat.log2 b.bufBytes

/-- R9: 128 ≤ BUF_BYTES ≤ 2^20. -/
def Build.bufInRange (b : Build) : Bool := 128 ≤ b.bufBytes && b.bufBytes ≤ 2 ^ 20

/-- The conditions R9 puts on the parameters of a build. -/
def Build.wf (b : Build) : Bool := b.secretsOdd && b.bufPowerOfTwo && b.bufInRange

end Sys2Proof
end

