-- ==== Sys2Proof/Decode.lean ====
section
/-! DEFINITION. The decoder of a command word (30_encoding R90 to R100), total on every 64-bit word and rejecting by name (R98), and the encoder (R97). -/

namespace Sys2Proof

/-- Why a word is no command: the five grounds of R98. -/
inductive IllegalWord where
  /-- R98(a): a reserved OP. -/
  | reservedOp
  /-- R98(b): RSV is not 0. -/
  | reservedBits
  /-- R98(c): D = 1 on an opcode other than INIT and HASH. -/
  | seedSelect
  /-- R98(d): W is not 0 on an opcode other than WRITEI. -/
  | widthField
  /-- R98(e): W is 5, 6 or 7 on WRITEI. -/
  | widthCode
  deriving DecidableEq, Repr

/-- The fields of a word, R90. -/
def fieldsOf (c : Word) : Fields where
  op := c.extractLsb' 0 8
  d := c.extractLsb' 8 1
  w := c.extractLsb' 9 3
  rsv := c.extractLsb' 12 52

/-- The word with these fields, R90. -/
def wordOf (f : Fields) : Word := f.rsv ++ f.w ++ f.d ++ f.op

/-- An opcode that uses neither D nor W (R92, R93). -/
def decodePlain (f : Fields) (i : Instr) : Except IllegalWord Instr :=
  if f.d ≠ 0 then .error .seedSelect
  else if f.w ≠ 0 then .error .widthField
  else .ok i

/-- INIT and HASH: D selects the seed source (R92), W must be 0. -/
def decodeSeeded (f : Fields) (fromArg fromDefault : Instr) : Except IllegalWord Instr :=
  if f.w ≠ 0 then .error .widthField
  else if f.d = 0 then .ok fromArg
  else .ok fromDefault

/-- WRITEI: W gives the width (R93), D must be 0. -/
def decodeInteger (f : Fields) : Except IllegalWord Instr :=
  if f.d ≠ 0 then .error .seedSelect
  else match f.w.toNat with
    | 0 => .ok .writei8
    | 1 => .ok .writei16
    | 2 => .ok .writei32
    | 3 => .ok .writei64
    | 4 => .ok .writei128
    | _ => .error .widthCode

/-- The opcode map, R91. -/
def decodeOp (f : Fields) : Except IllegalWord Instr :=
  match f.op.toNat with
  | 0x00 => decodePlain f .nop
  | 0x01 => decodeSeeded f .init .initDs
  | 0x02 => decodePlain f .write
  | 0x03 => decodeInteger f
  | 0x04 => decodePlain f .finish
  | 0x05 => decodeSeeded f .hash .hashDs
  | 0x10 => decodePlain f .mum
  | 0x11 => decodePlain f .mix
  | 0x12 => decodePlain f .evolve
  | 0x13 => decodePlain f .read32
  | 0x14 => decodePlain f .read64
  | 0x15 => decodePlain f .core
  | _ => .error .reservedOp

/-- The meaning of a 64-bit word as a command: one of the 18 of R97, or illegal by name (R98).
DESIGN CHOICE (log entry 15): a word with several faults is named by the first of RSV, OP, D, W. The hardware reports one code for all (R98). -/
def decode (c : Word) : Except IllegalWord Instr :=
  if (fieldsOf c).rsv ≠ 0 then .error .reservedBits else decodeOp (fieldsOf c)

/-- The fields of each command (R91 to R93), read off R97. -/
def fieldsFor : Instr → Fields
  | .nop => ⟨0x00, 0, 0, 0⟩
  | .init => ⟨0x01, 0, 0, 0⟩
  | .initDs => ⟨0x01, 1, 0, 0⟩
  | .write => ⟨0x02, 0, 0, 0⟩
  | .writei8 => ⟨0x03, 0, 0, 0⟩
  | .writei16 => ⟨0x03, 0, 1, 0⟩
  | .writei32 => ⟨0x03, 0, 2, 0⟩
  | .writei64 => ⟨0x03, 0, 3, 0⟩
  | .writei128 => ⟨0x03, 0, 4, 0⟩
  | .finish => ⟨0x04, 0, 0, 0⟩
  | .hash => ⟨0x05, 0, 0, 0⟩
  | .hashDs => ⟨0x05, 1, 0, 0⟩
  | .mum => ⟨0x10, 0, 0, 0⟩
  | .mix => ⟨0x11, 0, 0, 0⟩
  | .evolve => ⟨0x12, 0, 0, 0⟩
  | .read32 => ⟨0x13, 0, 0, 0⟩
  | .read64 => ⟨0x14, 0, 0, 0⟩
  | .core => ⟨0x15, 0, 0, 0⟩

/-- The command word of a command (R97). -/
def encode (i : Instr) : Word := wordOf (fieldsFor i)

/-- What the decoder reads from an instruction of `nbits` bits with value `w`: one 64-bit word, the bits above `nbits` being 0 (R100).
More than 64 bits are no command: every command is one 64-bit word. -/
def decodeTableWord (nbits w : Nat) : Option Instr :=
  if 64 < nbits then none else (decode (BitVec.ofNat 64 (w % 2 ^ nbits))).toOption

end Sys2Proof
end

