-- ==== Sys2Proof/Machine/Port.lean ====
section
/-! DEFINITION. The host port: address map, access rules, command acceptance, host writes and host reads (20_memory R60 to R79, 60_exceptions R243 to R247, 70_reset_and_hazards R282 to R284). -/

namespace Sys2Proof.Machine

open Host (Outcome)

/-- `HAW = ceil(log2(0x1000 + BUF_BYTES))`, the width of the port's offsets (R62). -/
def portWidth (bld : Build) : Nat := Nat.log2 (0x1000 + bld.bufBytes - 1) + 1

/-- The offset of a host address, none where the address is outside the window (R62). -/
def portOffset (bld : Build) (addr : Nat) : Option Nat :=
  if bld.base ≤ addr ∧ addr - bld.base < 2 ^ portWidth bld then some (addr - bld.base) else none

/-- The register at an offset, R41; none for the reserved offsets. -/
def regAt (off : Nat) : Option Reg :=
  match off with
  | 0x000 => some .id
  | 0x008 => some .param
  | 0x010 => some .cmd
  | 0x018 => some .status
  | 0x020 => some .seed
  | 0x028 => some .accA
  | 0x030 => some .accB
  | 0x038 => some .size
  | 0x040 => some .arg0
  | 0x048 => some .arg1
  | 0x050 => some .chunkOff
  | 0x058 => some .chunkLen
  | 0x060 => some .res0
  | 0x068 => some .res1
  | 0x070 => some .secret0
  | 0x078 => some .secret1
  | 0x080 => some .secret2
  | 0x088 => some .dseed
  | _ => none

/-- The IBUF index at an offset, none outside the IBUF window (R60, R62). -/
def ibufIndex (bld : Build) (off : Nat) : Option Nat :=
  if 0x1000 ≤ off ∧ off < 0x1000 + bld.bufBytes then some (off - 0x1000) else none

/-- A bad access, R67: illegal width, not naturally aligned, or not 8 bytes wide in the register window. -/
def badAccess (off width : Nat) : Bool :=
  !([1, 2, 4, 8].contains width) || off % width != 0 || (decide (off < 0x1000) && width != 8)

/-- The registers the host may write, all protected while busy (R41, R283). -/
def hostWritable : Reg → Bool
  | .id => false
  | .param => false
  | .cmd => false
  | .status => false
  | .seed => true
  | .accA => true
  | .accB => true
  | .size => true
  | .arg0 => true
  | .arg1 => true
  | .chunkOff => true
  | .chunkLen => true
  | .res0 => false
  | .res1 => false
  | .secret0 => false
  | .secret1 => false
  | .secret2 => false
  | .dseed => false

/-- The registers whose whole value is unspecified to a read in EXEC (R284). STATUS is so in part only. -/
def unspecifiedWhileBusy : Reg → Bool
  | .id => false
  | .param => false
  | .cmd => false
  | .status => false
  | .seed => true
  | .accA => true
  | .accB => true
  | .size => true
  | .arg0 => false
  | .arg1 => false
  | .chunkOff => false
  | .chunkLen => false
  | .res0 => true
  | .res1 => true
  | .secret0 => false
  | .secret1 => false
  | .secret2 => false
  | .dseed => false

/-- The identification constant, R22: "RAPIDH" and the variant code 1. -/
def idValue : Word := 0x5241504944480001

/-- The value of a register, `csr[NAME]` (R22 to R36). CMD reads 0 (R24). -/
def readReg (r : Reg) (s : State) : Word :=
  match r with
  | .id => idValue
  | .param => (BitVec.ofNat 32 s.build.bufBytes).setWidth 64
  | .cmd => 0
  | .status => statusOf s
  | .seed => s.seed
  | .accA => s.accA
  | .accB => s.accB
  | .size => s.size
  | .arg0 => s.arg0
  | .arg1 => s.arg1
  | .chunkOff => s.chunkOff
  | .chunkLen => s.chunkLen
  | .res0 => s.res0
  | .res1 => s.res1
  | .secret0 => s.build.secret0
  | .secret1 => s.build.secret1
  | .secret2 => s.build.secret2
  | .dseed => s.build.defaultSeed

/-- Acceptance of a CMD write, R243. -/
def accept (c : Word) (s : State) : State :=
  if s.fsm = .exec then s.raise .busyAccess
  else if s.err ≠ 0 then s
  else match decode c with
    | .error _ => s.raise .illegalCmd
    | .ok i =>
      match operandCheck i s with
      | some e => s.raise e
      | none => s.latch c

/-- A legal host write to a register or a reserved or unmapped offset (R282, R283, R72). -/
def writeRegister (off : Nat) (v : Word) (s : State) : State :=
  match regAt off with
  | none => s
  | some .cmd => accept v s
  | some .status => statusWrite v s
  | some r =>
    if hostWritable r then
      if s.fsm = .exec then s.raise .busyAccess else s.writeReg r v
    else s

/-- A legal host write to IBUF (R282, R64, R283). -/
def writeIbuf (k width : Nat) (v : Word) (s : State) : State :=
  if s.fsm = .exec then s.raise .busyAccess else s.storeBytes k (leBytes v width)

/-- `HostWrite(off, w, v)`, R282, with the order of checks of R245. -/
def hostWriteAt (off width : Nat) (v : Word) (s : State) : State :=
  if badAccess off width then s.raise .badAccess
  else match ibufIndex s.build off with
    | some k => writeIbuf k width v s
    | none => writeRegister off v s

/-- The IBUF bytes a host read sees, an undefined byte as a draw (R34, R282). -/
def ibufSeen (k width : Nat) (s : State) : List Byte :=
  (List.range width).map (fun i => (memGet s.ibuf (k + i)).getD (Config.freeByte s.draws 0 (k + i)))

/-- Some byte of an IBUF range is undefined. -/
def ibufUndefinedIn (k width : Nat) (s : State) : Bool :=
  (List.range width).any (fun i => (memGet s.ibuf (k + i)).isNone)

/-- A legal host read of a register (R282, R284). -/
def readRegister (r : Reg) (s : State) : State :=
  if s.fsm = .exec ∧ r = .status then (s.give (statusDrawn s)).drawIf true
  else if s.fsm = .exec ∧ unspecifiedWhileBusy r = true then
    (s.give (Config.freeWord s.draws)).drawIf true
  else s.give (readReg r s)

/-- `HostRead(off, w)`, R282: the value goes to `returned`. -/
def hostReadAt (off width : Nat) (s : State) : State :=
  if badAccess off width then (s.raise .badAccess).give 0
  else match ibufIndex s.build off with
    | some k =>
      (s.give (BitVec.ofNat 64 (leNat (ibufSeen k width s)))).drawIf (ibufUndefinedIn k width s)
    | none =>
      match regAt off with
      | none => s.give 0
      | some r => readRegister r s

/-- A host write at a host address. Outside the window there is no such address in the block (log entry 7). -/
def hostWrite (addr width : Nat) (v : Word) (s : State) : Outcome State Fault Refusal :=
  match portOffset s.build addr with
  | none => .fault .outsideWindow
  | some off => .next (hostWriteAt off width v s)

/-- A host read at a host address. Outside the window there is no such address in the block (log entry 7). -/
def hostRead (addr width : Nat) (s : State) : Outcome State Fault Refusal :=
  match portOffset s.build addr with
  | none => .fault .outsideWindow
  | some off => .next (hostReadAt off width s)

end Sys2Proof.Machine
end

