-- ==== Sys2Proof/Machine/Moves.lean ====
section
/-! DEFINITION. The four kinds of step (70_reset_and_hazards R280): the completion of the pending command (R281), host accesses (R282), reset (R271); and which move is next. -/

namespace Sys2Proof.Machine

open Host (Outcome)

/-- `Complete`, R281: run the latched command, then `pend <- none ; fsm <- IDLE`. -/
def complete (s : State) : Outcome State Fault Refusal :=
  match s.pend with
  | none => .fault .noPendingCommand
  | some c =>
    match decode c with
    | .error _ => .refused .illegalPending
    | .ok i => onNext State.retire (exec i s)

/-- One move. A completion is enabled only in EXEC (R280); in IDLE its place in the agenda passes with no effect (log entry 1). -/
def perform (m : Move) (s : State) : Outcome State Fault Refusal :=
  match m with
  | .hostWrite addr width v => hostWrite addr width v s
  | .hostRead addr width => hostRead addr width s
  | .complete => if s.fsm = .exec then complete s else .next s
  | .reset => .next s.resetAll

/-- The next move: the first of the agenda. When the outside world has no move left, a pending command completes (R287), and an idle block does nothing. -/
def nextMove (s : State) : Option Move :=
  match s.agenda with
  | m :: _ => some m
  | [] => if s.fsm = .exec then some .complete else none

end Sys2Proof.Machine
end

