-- ==== Sys2Proof/Machine/Step.lean ====
section
/-! DEFINITION. One step of the machine, and the placing of a command word where the next step runs it. -/

namespace Sys2Proof.Machine

/-- One step: the next move is performed and leaves the agenda (R280). -/
def step (s : State) : Host.Outcome State Fault Refusal :=
  match nextMove s with
  | none => .next s
  | some m => onNext State.popMove (perform m s)

/-- `s` with a command word of `nbits` bits accepted and the datapath's completion as the next move, so that the next step runs it.
It stands for the host's CMD write and its acceptance (R243): the block loads no program (log entry 1). -/
def State.withFetchWord (s : State) (nbits w : Nat) : State :=
  { s with
    fsm := .exec
    pend := some (BitVec.ofNat 64 (w % 2 ^ nbits))
    agenda := .complete :: s.agenda }

end Sys2Proof.Machine
end

