-- ==== Sys2Proof/Machine/Reference.lean ====
section
/-! DEFINITION. The algorithm a second time, as the spec's pseudocode writes it: natural numbers, exact products, a `while` loop over the variables `p` and `i`, total readers of a byte list (43_compression R150, with R120, R122, R130, R131, R140, R161, R180, R190, R202). Statements compare the datapath with it. The machine does not use it. -/

namespace Sys2Proof.Reference

/-- `mum(a, b)`, R120. -/
def mum (a b : Nat) : Nat × Nat := ((a * b) % 2 ^ 64, (a * b) / 2 ^ 64)

/-- `mix(a, b)`, R122. -/
def mix (a b : Nat) : Nat := (mum a b).1 ^^^ (mum a b).2

/-- `S[k]`, R16. -/
def secret (bld : Build) (k : Nat) : Nat :=
  if k = 0 then bld.secret0.toNat else if k = 1 then bld.secret1.toNat else bld.secret2.toNat

/-- `evolve_seed(seed, n)`, R140. -/
def evolveSeed (bld : Build) (seed n : Nat) : Nat :=
  seed ^^^ mix (seed ^^^ secret bld 0) (secret bld 1) ^^^ n

/-- `data[o]`. -/
def byteAt (data : List Byte) (o : Nat) : Nat := (data.getD o 0).toNat

/-- `read_u32(data, o)`, R130. -/
def rd32 (data : List Byte) (o : Nat) : Nat :=
  byteAt data o + byteAt data (o + 1) * 2 ^ 8 + byteAt data (o + 2) * 2 ^ 16
    + byteAt data (o + 3) * 2 ^ 24

/-- `read_u64(data, o)`, R131. -/
def rd64 (data : List Byte) (o : Nat) : Nat :=
  byteAt data o + byteAt data (o + 1) * 2 ^ 8 + byteAt data (o + 2) * 2 ^ 16
    + byteAt data (o + 3) * 2 ^ 24 + byteAt data (o + 4) * 2 ^ 32 + byteAt data (o + 5) * 2 ^ 40
    + byteAt data (o + 6) * 2 ^ 48 + byteAt data (o + 7) * 2 ^ 56

/-- `combine32(hi32, lo32)`, R132. -/
def combine32 (hi lo : Nat) : Nat := hi * 2 ^ 32 + lo

/-- The variables of the pseudocode for chunks of more than 16 bytes. -/
structure Vars where
  seed : Nat
  see1 : Nat
  see2 : Nat
  p : Nat
  i : Nat
  deriving DecidableEq, Repr

/-- Three lane steps at `p` and 48 bytes forward (R157, and each half of R156). -/
def threeLanes (bld : Build) (data : List Byte) (v : Vars) : Vars where
  seed := mix (rd64 data v.p ^^^ secret bld 0) (rd64 data (v.p + 8) ^^^ v.seed)
  see1 := mix (rd64 data (v.p + 16) ^^^ secret bld 1) (rd64 data (v.p + 24) ^^^ v.see1)
  see2 := mix (rd64 data (v.p + 32) ^^^ secret bld 2) (rd64 data (v.p + 40) ^^^ v.see2)
  p := v.p + 48
  i := v.i - 48

/-- `while i >= 96`, R156, with fuel; each turn takes 96 bytes, so `data.length` turns are enough. -/
def whileBulk (bld : Build) (data : List Byte) : Nat → Vars → Vars
  | 0, v => v
  | fuel + 1, v =>
    if 96 ≤ v.i then whileBulk bld data fuel (threeLanes bld data (threeLanes bld data v)) else v

/-- The bulk stage with its guard, the loop, the 48-byte round and the fold (R155 to R158). -/
def bulk (bld : Build) (data : List Byte) (v : Vars) : Vars :=
  if 48 < v.i then
    let w := whileBulk bld data data.length { v with see1 := v.seed, see2 := v.seed }
    let x := if 48 ≤ w.i then threeLanes bld data w else w
    { x with seed := x.seed ^^^ x.see1 ^^^ x.see2 }
  else v

/-- The tail rounds, R159: the seed. -/
def tail (bld : Build) (data : List Byte) (v : Vars) : Nat :=
  if 16 < v.i then
    let once := mix (rd64 data v.p ^^^ secret bld 2) (rd64 data (v.p + 8) ^^^ v.seed ^^^ secret bld 1)
    if 32 < v.i then mix (rd64 data (v.p + 16) ^^^ secret bld 2) (rd64 data (v.p + 24) ^^^ once) else once
  else v.seed

/-- `core(a, b, seed, data)`, R150: the band step and the final step of R161. -/
def core (bld : Build) (data : List Byte) (a b seed : Nat) : Nat × Nat × Nat :=
  let len := data.length
  let (a', b', seed') :=
    if len ≤ 16 then
      if 4 ≤ len then
        let delta := if 8 ≤ len then 4 else 0
        (a ^^^ combine32 (rd32 data 0) (rd32 data (len - 4)),
          b ^^^ combine32 (rd32 data delta) (rd32 data (len - 4 - delta)), seed)
      else if 0 < len then
        (a ^^^ (byteAt data 0 * 2 ^ 56 + byteAt data (len / 2) * 2 ^ 32 + byteAt data (len - 1)), b, seed)
      else (a, b, seed)
    else
      (a ^^^ rd64 data (len - 16), b ^^^ rd64 data (len - 8),
        tail bld data (bulk bld data ⟨seed, 0, 0, 0, len⟩))
  let product := mum (a' ^^^ secret bld 1) (b' ^^^ seed')
  (product.1, product.2, seed')

/-- `finish(a, b, n)`, R180. -/
def finish (bld : Build) (a b n : Nat) : Nat := mix (a ^^^ secret bld 0 ^^^ n) (b ^^^ secret bld 1)

/-- `hash(seed, data)`, R190. -/
def hash (bld : Build) (seed : Nat) (data : List Byte) : Nat :=
  let r := core bld data 0 0 (evolveSeed bld seed data.length)
  finish bld r.1 r.2.1 data.length

/-- The streaming hasher's value `{seed, a, b, size}` (R31). -/
structure Hasher where
  seed : Nat
  a : Nat
  b : Nat
  size : Nat
  deriving DecidableEq, Repr

/-- `write(bytes)`, R202, with the wrapping size of R204. -/
def write (bld : Build) (data : List Byte) (h : Hasher) : Hasher :=
  let size := (h.size + data.length) % 2 ^ 64
  let r := core bld data h.a h.b (evolveSeed bld h.seed size)
  ⟨r.2.2, r.1, r.2.1, size⟩

end Sys2Proof.Reference
end

