-- ==== Sys2Proof/Machine/Script.lean ====
section
/-! DEFINITION. The host-script notation (30_encoding R101, R102): each form as the moves it stands for. `wait` is a loop of the host's own (R102) and is here one of its finite runs. -/

namespace Sys2Proof.Machine

/-- `st.w OFF, V`, R101. -/
def scriptStore (bld : Build) (width off : Nat) (v : Word) : List Move :=
  [.hostWrite (bld.base + off) width v]

/-- `ld.w OFF`, R101. -/
def scriptLoad (bld : Build) (width off : Nat) : List Move := [.hostRead (bld.base + off) width]

/-- `cmd MNEMONIC`, R101: `st.8 0x010, word`. -/
def scriptCmd (bld : Build) (i : Instr) : List Move := scriptStore bld 8 0x010 (encode i)

/-- A run of `wait`, R102, whose loop polls STATUS `polls` times before the completion and once after it. -/
def scriptWait (bld : Build) (polls : Nat) : List Move :=
  (List.replicate polls (scriptLoad bld 8 0x018)).flatten ++ [.complete] ++ scriptLoad bld 8 0x018

/-- `setchunk K, N`, R102. -/
def scriptSetChunk (bld : Build) (k n : Word) : List Move :=
  scriptStore bld 8 0x050 k ++ scriptStore bld 8 0x058 n

/-- `setarg X, Y`, R102. -/
def scriptSetArg (bld : Build) (x y : Word) : List Move :=
  scriptStore bld 8 0x040 x ++ scriptStore bld 8 0x048 y

/-- `load K, bytes`, R102: one `st.1` per byte. -/
def scriptLoadBytes (bld : Build) (k : Nat) : List Byte → List Move
  | [] => []
  | b :: rest => scriptStore bld 1 (0x1000 + k) (b.setWidth 64) ++ scriptLoadBytes bld (k + 1) rest

/-- `clrerr`, R102. -/
def scriptClrErr (bld : Build) : List Move := scriptStore bld 8 0x018 0x8

/-- `clrovf`, R102. -/
def scriptClrOvf (bld : Build) : List Move := scriptStore bld 8 0x018 0x2

/-- `getres`, R102. -/
def scriptGetRes (bld : Build) : List Move := scriptLoad bld 8 0x060 ++ scriptLoad bld 8 0x068

/-- `hashbuf K, N`, R102, with a run of its `wait`. -/
def scriptHashBuf (bld : Build) (k n : Word) (polls : Nat) : List Move :=
  scriptSetChunk bld k n ++ scriptCmd bld .hashDs ++ scriptWait bld polls ++ scriptLoad bld 8 0x060

end Sys2Proof.Machine
end

