-- ==== Sys2Proof/Safety.lean ====
section
/-! DEFINITION. What counts as a safe state and a safe run: the invariant of reachable states, clean entry (70_reset_and_hazards R273), the end of a run (R274), and moves inside the block's window (20_memory R62). -/

namespace Sys2Proof.Machine

/-- A latched word is a command that acceptance admits in this state: it decodes (R98) and its operand checks pass (R243).
The operands cannot change before completion (R37). -/
def pendAdmitted (s : State) (c : Word) : Prop :=
  ∃ i, decode c = .ok i ∧ operandCheck i s = none

/-- The invariant of the states a run reaches from reset. -/
structure State.Inv (s : State) : Prop where
  /-- The build meets R9. -/
  build : s.build.wf = true
  /-- The latch holds a command exactly in EXEC (R21, R37). -/
  latch : s.fsm = .exec ↔ s.pend.isSome = true
  /-- The latched command passed every check of acceptance (R37, R243). -/
  pending : ∀ c, s.pend = some c → pendAdmitted s c
  /-- ERR is 0 or a code that is raised: not 5 (R163, R240) and not 7 to 15 (R240, S5). -/
  err : s.err = 0 ∨ s.err = 1 ∨ s.err = 2 ∨ s.err = 3 ∨ s.err = 4 ∨ s.err = 6
  /-- BAND is 0 to 8 (R30, S6). -/
  band : s.band.toNat ≤ 8
  /-- IBUF is in canonical form (R34, R60). -/
  ibuf : memWf s.build.bufBytes s.ibuf = true

/-- `CleanEntry(st)`, R273: the launch premise of a host program's claims. -/
def State.CleanEntry (s : State) : Prop :=
  s.fsm = .idle ∧ s.pend = none ∧ s.err = 0 ∧ s.ovf = false ∧ s.modelFault = none

/-- The move is an access of the host (R280). -/
def Move.isHostAccess : Move → Bool
  | .hostWrite _ _ _ => true
  | .hostRead _ _ => true
  | .complete => false
  | .reset => false

/-- A run has ended, R274: the host has performed its last access, no command is pending, and no model fault is recorded.
DEDUCED (log entry 16): R274 names the host's accesses only, so a completion or a reset may still stand in the agenda. -/
def State.Ended (s : State) : Prop :=
  (∀ m ∈ s.agenda, m.isHostAccess = false) ∧ s.fsm = .idle ∧ s.pend = none ∧ s.modelFault = none

/-- A move reaches the block: a host access lies in the window of R62. -/
def Move.inWindow (bld : Build) : Move → Prop
  | .hostWrite addr _ _ => (portOffset bld addr).isSome = true
  | .hostRead addr _ => (portOffset bld addr).isSome = true
  | .complete => True
  | .reset => True

/-- The chunk registers of `s` name a chunk whose bytes are all defined and are `data` (R14, R34). -/
def chunkHolds (s : State) (data : List Byte) : Prop :=
  data.length = s.chunkLen.toNat ∧
    ∀ o < data.length, memGet s.ibuf (s.chunkOff.toNat + o) = data[o]?

/-- The chunk registers of `s` name a chunk with an undefined byte (R34). -/
def chunkUndefined (s : State) : Prop :=
  ∃ o < s.chunkLen.toNat, memGet s.ibuf (s.chunkOff.toNat + o) = none

/-- What a legal read of `w` bytes at IBUF index `k` does (R64, R282): it returns their little-endian value and changes nothing else.
An undefined byte, and only it, is left open, and then one draw is taken (R34; log entry 5). -/
def ibufReadGives (k w : Nat) (s : State) : Prop :=
  ∃ v : Word, v.toNat < 2 ^ (8 * w) ∧
    (∀ i < w, ∀ b, memGet s.ibuf (k + i) = some b → v.extractLsb' (8 * i) 8 = b) ∧
    ((∀ i < w, memGet s.ibuf (k + i) ≠ none) → hostReadAt (0x1000 + k) w s = s.give v) ∧
    ((∃ i < w, memGet s.ibuf (k + i) = none) →
      hostReadAt (0x1000 + k) w s = { s with returned := v :: s.returned, draws := s.draws + 1 })

/-- The CMD write of `c` to an idle block without error is accepted (R243), with no operand check. -/
def acceptedAlways (c : Word) (s : State) : Prop :=
  s.fsm = .idle → s.err = 0 → hostWriteAt 0x010 8 c s = { s with pend := some c, fsm := .exec }

/-- The same with the check of the chunk's range, code 2 (R240, R243). -/
def acceptedInRange (c : Word) (s : State) : Prop :=
  s.fsm = .idle → s.err = 0 → hostWriteAt 0x010 8 c s =
    if s.build.bufBytes < s.chunkOff.toNat + s.chunkLen.toNat then { s with err := 2 }
    else { s with pend := some c, fsm := .exec }

/-- The same with that check and then the bound of a read of `width` bytes, code 3 (R240, R243). -/
def acceptedInBounds (width : Nat) (c : Word) (s : State) : Prop :=
  s.fsm = .idle → s.err = 0 → hostWriteAt 0x010 8 c s =
    if s.build.bufBytes < s.chunkOff.toNat + s.chunkLen.toNat then { s with err := 2 }
    else if s.chunkLen.toNat < s.arg0.toNat + width then { s with err := 3 }
    else { s with pend := some c, fsm := .exec }

/-- Byte `k` of the 128-bit value ARG1:ARG0 (R205). -/
def integerByte (s : State) (k : Nat) : Byte :=
  if k < 8 then s.arg0.extractLsb' (8 * k) 8 else s.arg1.extractLsb' (8 * (k - 8)) 8

/-- The streaming registers of `s` as the source's hasher value (R31). -/
def hasherOf (s : State) : Reference.Hasher :=
  ⟨s.seed.toNat, s.accA.toNat, s.accB.toNat, s.size.toNat⟩

/-- Command `i` in state `s` completes with the effect R202 gives a WRITE of the bytes `data`: the streaming registers take the values of the pseudocode, OVF and BAND are as R204 and R162 say, and nothing else changes. -/
def foldsBytes (i : Instr) (s : State) (data : List Byte) : Prop :=
  ∃ x a b n : Word,
    (⟨x.toNat, a.toNat, b.toNat, n.toNat⟩ : Reference.Hasher)
      = Reference.write s.build data (hasherOf s) ∧
    exec i s = .next { s with
      seed := x
      accA := a
      accB := b
      size := n
      ovf := s.ovf || decide (2 ^ 64 ≤ s.size.toNat + data.length)
      band := BitVec.ofNat 4 (bandClass data.length) }

/-- Every move of an agenda reaches the block. -/
def agendaInWindow (bld : Build) (moves : List Move) : Prop := ∀ m ∈ moves, m.inWindow bld

end Sys2Proof.Machine
end

