-- ==== Sys2Proof/Certificates/Slice0/Obligations.lean ====
section
/-! DEFINITION. The statements for the provers, one def each, named by what they state. Each docstring names the rules of spec/ it formalises. -/

open Sys2Proof Sys2Proof.Machine

/-! ### Encoding (30_encoding) -/

/-- R97 (the spec derives it from R91 to R94): the 18 words of the opcode map, in the order of the commands, are exactly the words that decode, each to its own command and to no other. -/
def Obligations.LegalWordsAreTheEighteen : Prop :=
  let words : List Word := [0x000, 0x001, 0x101, 0x002, 0x003, 0x203, 0x403, 0x603, 0x803, 0x004, 0x005, 0x105,
    0x010, 0x011, 0x012, 0x013, 0x014, 0x015]
  [Instr.nop, .init, .initDs, .write, .writei8, .writei16, .writei32, .writei64, .writei128, .finish, .hash, .hashDs,
    .mum, .mix, .evolve, .read32, .read64, .core].map encode = words ∧
  (∀ (w : Word) (i : Instr), decode w = .ok i ↔ w = encode i) ∧
  (∀ w : Word, (∃ i, decode w = .ok i) ↔ w ∈ words)

/-- R97, R103: words written out from the tables read as the commands they stand for, and R103's illegal words are refused on R103's grounds. -/
def Obligations.WordsReadAsTheTableSays : Prop :=
  decode 0x000 = .ok .nop ∧ decode 0x001 = .ok .init ∧ decode 0x101 = .ok .initDs ∧
  decode 0x002 = .ok .write ∧ decode 0x003 = .ok .writei8 ∧ decode 0x203 = .ok .writei16 ∧
  decode 0x403 = .ok .writei32 ∧ decode 0x603 = .ok .writei64 ∧ decode 0x803 = .ok .writei128 ∧
  decode 0x004 = .ok .finish ∧ decode 0x005 = .ok .hash ∧ decode 0x105 = .ok .hashDs ∧
  decode 0x010 = .ok .mum ∧ decode 0x011 = .ok .mix ∧ decode 0x012 = .ok .evolve ∧
  decode 0x013 = .ok .read32 ∧ decode 0x014 = .ok .read64 ∧ decode 0x015 = .ok .core ∧
  decode 0x106 = .error .reservedOp ∧ decode 0x102 = .error .seedSelect ∧
  decode 0xA03 = .error .widthCode ∧ decode 0x1000 = .error .reservedBits

/-- R98: a word is illegal exactly on the five grounds (a) to (e), read off its bits, and a CMD write of an illegal word to an idle block without error sets ERR to 1 and changes nothing else. -/
def Obligations.IllegalWordsAreThoseOfTheFiveGrounds : Prop :=
  (∀ w : Word, (∀ i, decode w ≠ .ok i) ↔
    ((w.extractLsb' 0 8).toNat ∉ [0x00, 0x01, 0x02, 0x03, 0x04, 0x05, 0x10, 0x11, 0x12, 0x13, 0x14, 0x15]
      ∨ w.extractLsb' 12 52 ≠ 0
      ∨ (w.getLsbD 8 = true ∧ (w.extractLsb' 0 8).toNat ∉ [0x01, 0x05])
      ∨ (w.extractLsb' 9 3 ≠ 0 ∧ (w.extractLsb' 0 8).toNat ≠ 0x03)
      ∨ (5 ≤ (w.extractLsb' 9 3).toNat ∧ (w.extractLsb' 0 8).toNat = 0x03))) ∧
  (∀ (w : Word) (s : State), (∀ i, decode w ≠ .ok i) → s.fsm = .idle → s.err = 0 →
    hostWriteAt 0x010 8 w s = { s with err := 1 })

/-! ### Reset and sequencing (10_state, 70_reset_and_hazards) -/

/-- R270: every piece of state has its value after reset, on every build; State.reset is such a state, and INIT.DS changes nothing of it. The model's own fields (agenda, returned, draws) and BASE are not the spec's and are left open here. -/
def Obligations.ResetLeavesTheSpecValues : Prop :=
  (∃ (b : Build) (moves : List Move) (ret : List Word) (n : Nat), b.wf = true ∧
    State.reset = State.resetWith b moves ret n) ∧
  ∀ (b : Build) (moves : List Move) (ret : List Word) (n : Nat),
    let s := State.resetWith b moves ret n
    s.build = b ∧ s.fsm = .idle ∧ s.pend = none ∧ statusOf s = 0 ∧ s.ovf = false ∧ s.err = 0 ∧ s.band = 0 ∧
    s.seed = b.defaultSeed ∧ s.accA = 0 ∧ s.accB = 0 ∧ s.size = 0 ∧
    s.arg0 = 0 ∧ s.arg1 = 0 ∧ s.chunkOff = 0 ∧ s.chunkLen = 0 ∧ s.res0 = 0 ∧ s.res1 = 0 ∧
    (∀ k, memGet s.ibuf k = none) ∧ s.modelFault = none ∧
    readReg .id s = 0x5241504944480001 ∧ (b.wf = true → (readReg .param s).toNat = b.bufBytes) ∧
    readReg .secret0 s = b.secret0 ∧ readReg .secret1 s = b.secret1 ∧ readReg .secret2 s = b.secret2 ∧
    readReg .dseed s = b.defaultSeed ∧ readReg .cmd s = 0 ∧
    exec .initDs s = .next s

/-- R271: reset in either FSM state abandons the pending command and gives every state its reset value; and the host's two writes 0xA to STATUS and INIT.DS to CMD, with the completion, give the reset values of OVF, ERR, the FSM and the streaming registers in an idle block. That reset leaves the model's own fields (agenda, returned, draws) is the model's choice (log entry 6); the moves stand in its agenda (log entry 1). -/
def Obligations.ResetAbandonsTheCommandAndHostCanRestart : Prop :=
  (∀ (s : State) (rest : List Move), s.agenda = .reset :: rest →
    step s = .next (State.resetWith s.build rest s.returned s.draws)) ∧
  (∀ s : State, s.fsm = .idle → s.pend = none →
    s.agenda = scriptStore s.build 8 0x018 0xA ++ scriptCmd s.build .initDs ++ [.complete] →
    Host.Core.run core 3 s = .next { s with
      agenda := []
      ovf := false
      err := 0
      seed := s.build.defaultSeed
      accA := 0
      accB := 0
      size := 0 })

/-- R281: where the datapath's completion is next and the latch holds a command, the step is exec of that command followed by the end of EXEC and the move's leaving the agenda. That a completion is also what an empty agenda leaves to a busy block is the model's form of R287 (log entry 1). -/
def Obligations.StepRunsTheLatchedCommand : Prop :=
  ∀ (s : State) (c : Word) (i : Instr), s.fsm = .exec → s.pend = some c → decode c = .ok i →
    (s.agenda = [] ∨ ∃ rest, s.agenda = .complete :: rest) →
    step s = onNext (fun t => { t with pend := none, fsm := .idle, agenda := t.agenda.tail }) (exec i s)

/-- The invariant of reachable states (Safety): a legal admitted command is latched exactly in EXEC, ERR is never 5 or above 6, BAND is at most 8, IBUF keeps its canonical form, the build meets R9. Every step keeps it, from every state that meets it. -/
def Obligations.StepKeepsTheInvariant : Prop :=
  ∀ s t : State, s.Inv → step s = .next t → t.Inv

/-- The invariant holds after reset, for every build that meets R9 and every agenda, and the reset state is a clean entry (R273). State.reset has the default constants of R9, which the spec has from general knowledge: the model's choice of build (log entry 2, PRESUMED). -/
def Obligations.ResetMeetsTheInvariant : Prop :=
  State.reset.Inv ∧ State.reset.CleanEntry ∧
  (State.reset.build.secret0 = 0x2d358dccaa6c78a5 ∧ State.reset.build.secret1 = 0x8bb84b93962eacc9 ∧
    State.reset.build.secret2 = 0x4b33a62ed433d4a3 ∧ State.reset.build.defaultSeed = 0xbdd89aa982704029 ∧
    State.reset.build.bufBytes = 4096) ∧
  ∀ (b : Build) (moves : List Move) (ret : List Word) (n : Nat), b.wf = true →
    (State.resetWith b moves ret n).Inv ∧ (State.resetWith b moves ret n).CleanEntry

/-- R9, R22, R23, R36: no step changes the build parameters, so ID, PARAM, SECRET0 to SECRET2 and DSEED always read their constants. -/
def Obligations.StepKeepsTheConstants : Prop :=
  ∀ s t : State, step s = .next t → t.build = s.build ∧
    ∀ r ∈ [Reg.id, .param, .secret0, .secret1, .secret2, .dseed], readReg r t = readReg r s

/-- R26: BUSY reads 1 exactly in EXEC, is set only by acceptance of a CMD write, and is cleared only by completion or reset; its reset value is 0. -/
def Obligations.BusyChangesOnlyByAcceptanceAndCompletion : Prop :=
  (statusOf State.reset).getLsbD 0 = false ∧
  (∀ s : State, (statusOf s).getLsbD 0 = true ↔ s.fsm = .exec) ∧
  (∀ s t : State, step s = .next t → s.fsm = .idle → t.fsm = .exec →
    ∃ addr c i, nextMove s = some (.hostWrite addr 8 c) ∧ portOffset s.build addr = some 0x010 ∧
      s.err = 0 ∧ decode c = .ok i ∧ operandCheck i s = none ∧ t.pend = some c) ∧
  (∀ s t : State, step s = .next t → s.fsm = .exec → t.fsm = .idle →
    nextMove s = some .complete ∨ nextMove s = some .reset)

/-- R37, R75, R283: while a command is pending, no host access changes the latch, the FSM, an operand register or IBUF, so a command's inputs are those at acceptance. -/
def Obligations.OperandsAreFrozenWhileBusy : Prop :=
  ∀ (s t : State) (m : Move), s.fsm = .exec → nextMove s = some m → m ≠ .complete → m ≠ .reset →
    step s = .next t →
    t.fsm = .exec ∧ t.pend = s.pend ∧ t.seed = s.seed ∧ t.accA = s.accA ∧ t.accB = s.accB ∧ t.size = s.size ∧
    t.arg0 = s.arg0 ∧ t.arg1 = s.arg1 ∧ t.chunkOff = s.chunkOff ∧ t.chunkLen = s.chunkLen ∧ t.ibuf = s.ibuf

/-- R246, R163, R241: every command completes in every state, and where its acceptance checks hold it raises no error. -/
def Obligations.EveryCommandCompletes : Prop :=
  ∀ (i : Instr) (s : State), ∃ t, exec i s = .next t ∧ (operandCheck i s = none → t.err = s.err)

/-- R287: from every state that meets the invariant, with every move of the agenda inside the window, the run of one step more than the agenda holds ends idle with nothing pending. -/
def Obligations.EveryRunReachesIdle : Prop :=
  ∀ s : State, s.Inv → agendaInWindow s.build s.agenda →
    ∃ t, Host.Core.run core (s.agenda.length + 1) s = .next t ∧ t.fsm = .idle ∧ t.pend = none ∧ t.agenda = []

/-- R241: in the states that meet the invariant no step is refused, and the only stop is a host access outside the block's window. R62: the window holds every register, reserved and IBUF offset of a legal build, as far as HAW = ceil(log2(0x1000 + BUF_BYTES)) bits of offset reach, and BASE + off is offset off. That an address below BASE or an offset of 2^HAW or more is outside, and stops, is the model's choice (log entry 7). -/
def Obligations.StepStopsOnlyOutsideTheWindow : Prop :=
  (∀ s : State, s.Inv → (∃ t, step s = .next t) ∨
    (step s = .fault .outsideWindow ∧ ∃ m, nextMove s = some m ∧ ¬ m.inWindow s.build)) ∧
  (∀ (b : Build) (off : Nat), b.wf = true → off < 0x1000 + b.bufBytes → portOffset b (b.base + off) = some off) ∧
  (∀ (b : Build) (off : Nat), portOffset b (b.base + off)
    = if off < 2 ^ Nat.clog 2 (0x1000 + b.bufBytes) then some off else none) ∧
  (∀ (b : Build) (addr : Nat), addr < b.base → portOffset b addr = none)

/-! ### Errors, flags and acceptance (00_scope R15, 10_state R25 to R30, 60_exceptions) -/

/-- R15: raise records its code only where ERR is 0, and changes nothing else; the codes are those of R240. -/
def Obligations.RaiseKeepsTheFirstError : Prop :=
  (∀ (e : ErrorCode) (s : State), s.err = 0 → s.raise e = { s with err := e.code }) ∧
  (∀ (e : ErrorCode) (s : State), s.err ≠ 0 → s.raise e = s) ∧
  ErrorCode.illegalCmd.code = 1 ∧ ErrorCode.chunkRange.code = 2 ∧ ErrorCode.readBounds.code = 3 ∧
  ErrorCode.busyAccess.code = 4 ∧ ErrorCode.internal.code = 5 ∧ ErrorCode.badAccess.code = 6

/-- R29: a step changes ERR only from 0 to a raised code, or to 0 by a STATUS write with ERRCLR or by reset; that write does clear it; its reset value is 0. -/
def Obligations.ErrIsStickyUntilCleared : Prop :=
  State.reset.err = 0 ∧
  (∀ s t : State, step s = .next t → t.err ≠ s.err →
    (s.err = 0 ∧ ∃ e : ErrorCode, t.err = e.code) ∨
    (t.err = 0 ∧ (nextMove s = some .reset ∨ ∃ addr w, nextMove s = some (.hostWrite addr 8 w) ∧
      portOffset s.build addr = some 0x018 ∧ w.getLsbD 3 = true))) ∧
  (∀ (s : State) (w : Word), w.getLsbD 3 = true → (hostWriteAt 0x018 8 w s).err = 0)

/-- R28: a WRITE or WRITEI whose exact size sum reaches 2^64 sets OVF, with no error, and nothing else does; OVF is cleared only by a STATUS write of 1 to bit 1, which does clear it, or by reset; its reset value is 0. -/
def Obligations.OvfIsStickyUntilCleared : Prop :=
  State.reset.ovf = false ∧
  (∀ (s t : State) (c : Word) (i : Instr) (n : Nat), step s = .next t → nextMove s = some .complete → s.fsm = .exec →
    s.pend = some c → decode c = .ok i →
    (i, n) ∈ [(Instr.write, s.chunkLen.toNat), (.writei8, 1), (.writei16, 2), (.writei32, 4), (.writei64, 8), (.writei128, 16)] →
    2 ^ 64 ≤ s.size.toNat + n → t.ovf = true ∧ t.err = s.err) ∧
  (∀ s t : State, step s = .next t → s.ovf = false → t.ovf = true →
    nextMove s = some .complete ∧ ∃ c i n, s.pend = some c ∧ decode c = .ok i ∧
      (i, n) ∈ [(Instr.write, s.chunkLen.toNat), (.writei8, 1), (.writei16, 2), (.writei32, 4), (.writei64, 8), (.writei128, 16)] ∧
      2 ^ 64 ≤ s.size.toNat + n) ∧
  (∀ s t : State, step s = .next t → s.ovf = true → t.ovf = false →
    nextMove s = some .reset ∨ ∃ addr w, nextMove s = some (.hostWrite addr 8 w) ∧
      portOffset s.build addr = some 0x018 ∧ w.getLsbD 1 = true) ∧
  (∀ (s : State) (w : Word), w.getLsbD 1 = true → (hostWriteAt 0x018 8 w s).ovf = false)

/-- R30: the completion of a command that runs the core sets BAND to the class of the length it folds; nothing else changes BAND but reset, whose value is 0; the class is at most 8. -/
def Obligations.BandIsWrittenOnlyByCoreCommands : Prop :=
  State.reset.band = 0 ∧ (∀ n : Nat, bandClass n ≤ 8) ∧
  (∀ (s t : State) (c : Word) (i : Instr) (n : Nat), step s = .next t → nextMove s = some .complete → s.fsm = .exec →
    s.pend = some c → decode c = .ok i →
    (i, n) ∈ [(Instr.write, s.chunkLen.toNat), (.hash, s.chunkLen.toNat), (.hashDs, s.chunkLen.toNat), (.core, s.chunkLen.toNat),
      (.writei8, 1), (.writei16, 2), (.writei32, 4), (.writei64, 8), (.writei128, 16)] →
    t.band.toNat = bandClass n) ∧
  (∀ s t : State, step s = .next t → t.band ≠ s.band →
    nextMove s = some .reset ∨
    (nextMove s = some .complete ∧ ∃ c i, s.pend = some c ∧ decode c = .ok i ∧
      i ∈ [Instr.write, .hash, .hashDs, .core, .writei8, .writei16, .writei32, .writei64, .writei128]))

/-- R243, R247: the acceptance of a CMD write, in its order: busy, halted, ILLEGAL_CMD, CHUNK_RANGE, READ_BOUNDS, and else the latch takes the word and EXEC begins. Each clause excludes those before it. -/
def Obligations.AcceptanceChecksInOrder : Prop :=
  let legal : List Word := [0x000, 0x001, 0x101, 0x002, 0x003, 0x203, 0x403, 0x603, 0x803, 0x004, 0x005, 0x105,
    0x010, 0x011, 0x012, 0x013, 0x014, 0x015]
  let chunk : List Word := [0x002, 0x005, 0x105, 0x015, 0x013, 0x014]
  ∀ (c : Word) (s : State), hostWriteAt 0x010 8 c s =
    if s.fsm = .exec then s.raise .busyAccess
    else if s.err ≠ 0 then s
    else if c ∉ legal then s.raise .illegalCmd
    else if c ∈ chunk ∧ s.build.bufBytes < s.chunkOff.toNat + s.chunkLen.toNat then s.raise .chunkRange
    else if c = 0x013 ∧ s.chunkLen.toNat < s.arg0.toNat + 4 then s.raise .readBounds
    else if c = 0x014 ∧ s.chunkLen.toNat < s.arg0.toNat + 8 then s.raise .readBounds
    else { s with pend := some c, fsm := .exec }

/-- R281, R244: completion never depends on ERR. A command whose checks held at acceptance does the same whatever ERR is, and leaves ERR as it finds it. -/
def Obligations.CompletionIgnoresErr : Prop :=
  ∀ (i : Instr) (s : State) (e : BitVec 4), operandCheck i s = none →
    exec i { s with err := e } = onNext (fun t => { t with err := e }) (exec i s)

/-- R286: a second CMD write before the first command completes raises BUSY_ACCESS and is lost, the first command completes, and the next CMD write is discarded. -/
def Obligations.SecondCommandWithoutWaitIsLost : Prop :=
  ∀ (s t : State) (c second third : Word) (i : Instr),
    s.fsm = .exec → s.pend = some c → decode c = .ok i → operandCheck i s = none → s.err = 0 →
    s.agenda = scriptStore s.build 8 0x010 second ++ [.complete] ++ scriptStore s.build 8 0x010 third →
    exec i s = .next t →
    Host.Core.run core 3 s = .next { t with pend := none, fsm := .idle, err := 4, agenda := [] }

/-! ### The host port (20_memory, 10_state R41, 70_reset_and_hazards R282 to R284) -/

/-- R67: an access of another width than 1, 2, 4 or 8, not naturally aligned, or not 8 bytes wide in the register window is a bad access: a write is dropped, a read gives 0, and code 6 is raised. A naturally aligned access never crosses the end of IBUF. -/
def Obligations.BadAccessesRaiseSix : Prop :=
  (∀ (off w : Nat) (v : Word) (s : State), (w ∉ [1, 2, 4, 8] ∨ off % w ≠ 0 ∨ (off < 0x1000 ∧ w ≠ 8)) →
    hostWriteAt off w v s = s.raise .badAccess ∧ hostReadAt off w s = (s.raise .badAccess).give 0) ∧
  (∀ (b : Build) (off w : Nat), b.wf = true → w ∈ [1, 2, 4, 8] → off % w = 0 → 0x1000 ≤ off →
    off < 0x1000 + b.bufBytes → off + w ≤ 0x1000 + b.bufBytes)

/-- R72: a legal access to a reserved register offset or to an unmapped offset does nothing on a write and gives 0 on a read, busy or not; one that breaks R67 is a bad access. -/
def Obligations.ReservedAndUnmappedOffsetsAreInert : Prop :=
  ∀ (off w : Nat) (v : Word) (s : State),
    ((0x090 ≤ off ∧ off < 0x1000) ∨ 0x1000 + s.build.bufBytes ≤ off) →
    (w ∈ [1, 2, 4, 8] → off % w = 0 → (off < 0x1000 → w = 8) →
      hostWriteAt off w v s = s ∧ hostReadAt off w s = s.give 0) ∧
    ((w ∉ [1, 2, 4, 8] ∨ off % w ≠ 0 ∨ (off < 0x1000 ∧ w ≠ 8)) →
      hostWriteAt off w v s = s.raise .badAccess ∧ hostReadAt off w s = (s.raise .badAccess).give 0)

/-- R283: while busy, writes to CMD, the eight operand and state registers and IBUF raise code 4 and are dropped; STATUS writes are honoured; read-only, reserved and unmapped offsets ignore writes. -/
def Obligations.BusyWritesAreRejected : Prop :=
  ∀ (s : State) (v : Word), s.fsm = .exec →
    (∀ off ∈ [0x010, 0x020, 0x028, 0x030, 0x038, 0x040, 0x048, 0x050, 0x058],
      hostWriteAt off 8 v s = s.raise .busyAccess) ∧
    (∀ off w, w ∈ [1, 2, 4, 8] → off % w = 0 → 0x1000 ≤ off → off < 0x1000 + s.build.bufBytes →
      hostWriteAt off w v s = s.raise .busyAccess) ∧
    hostWriteAt 0x018 8 v s
      = { s with ovf := s.ovf && !v.getLsbD 1, err := if v.getLsbD 3 then 0 else s.err } ∧
    (∀ off ∈ [0x000, 0x008, 0x060, 0x068, 0x070, 0x078, 0x080, 0x088], hostWriteAt off 8 v s = s) ∧
    (∀ off w, ((0x090 ≤ off ∧ off < 0x1000 ∧ w = 8) ∨ (0x1000 + s.build.bufBytes ≤ off ∧ w ∈ [1, 2, 4, 8])) → off % w = 0 →
      hostWriteAt off w v s = s)

/-- R25: the fields a read of STATUS gives, OVF and BAND of an idle block among them (R284 leaves those two open in EXEC); the two effects of a STATUS write, busy or not, and no other; the reset value 0. -/
def Obligations.StatusFieldsAndWriteEffect : Prop :=
  statusOf State.reset = 0 ∧
  (∀ s : State, ∃ (v : Word) (d : Nat), hostReadAt 0x018 8 s = { s with returned := v :: s.returned, draws := d } ∧
    (v.getLsbD 0 = true ↔ s.fsm = .exec) ∧ v.getLsbD 2 = false ∧ v.getLsbD 3 = false ∧
    v.extractLsb' 4 4 = s.err ∧ v.extractLsb' 12 52 = 0 ∧
    (s.fsm = .idle → d = s.draws ∧ v.getLsbD 1 = s.ovf ∧ v.extractLsb' 8 4 = s.band)) ∧
  (∀ (s : State) (w : Word), hostWriteAt 0x018 8 w s
    = { s with ovf := s.ovf && !w.getLsbD 1, err := if w.getLsbD 3 then 0 else s.err })

/-- R41, R282: in an idle block each register offset reads its register, the eight read/write registers take what is written, and read-only registers ignore writes. -/
def Obligations.RegisterMapReadsAndWrites : Prop :=
  ∀ (s : State) (v : Word), s.fsm = .idle →
    (∀ p ∈ [(0x000, (0x5241504944480001 : Word)), (0x008, (BitVec.ofNat 32 s.build.bufBytes).setWidth 64),
        (0x010, 0), (0x020, s.seed), (0x028, s.accA), (0x030, s.accB), (0x038, s.size),
        (0x040, s.arg0), (0x048, s.arg1), (0x050, s.chunkOff), (0x058, s.chunkLen),
        (0x060, s.res0), (0x068, s.res1), (0x070, s.build.secret0), (0x078, s.build.secret1),
        (0x080, s.build.secret2), (0x088, s.build.defaultSeed)],
      hostReadAt p.1 8 s = s.give p.2) ∧
    hostWriteAt 0x020 8 v s = { s with seed := v } ∧ hostWriteAt 0x028 8 v s = { s with accA := v } ∧
    hostWriteAt 0x030 8 v s = { s with accB := v } ∧ hostWriteAt 0x038 8 v s = { s with size := v } ∧
    hostWriteAt 0x040 8 v s = { s with arg0 := v } ∧ hostWriteAt 0x048 8 v s = { s with arg1 := v } ∧
    hostWriteAt 0x050 8 v s = { s with chunkOff := v } ∧ hostWriteAt 0x058 8 v s = { s with chunkLen := v } ∧
    (∀ off ∈ [0x000, 0x008, 0x060, 0x068, 0x070, 0x078, 0x080, 0x088], hostWriteAt off 8 v s = s)

/-- R284: reads while busy. Operand registers and constants read exactly, CMD, reserved and unmapped offsets read 0, STATUS reads BUSY and ERR exactly, a read of IBUF, of each width, gives its defined bytes exactly; the others give some value and change nothing but the log of returned values and the count of draws. -/
def Obligations.BusyReadsAreExactOrDrawn : Prop :=
  ∀ s : State, s.fsm = .exec →
    (∀ p ∈ [(0x000, (0x5241504944480001 : Word)), (0x008, (BitVec.ofNat 32 s.build.bufBytes).setWidth 64),
        (0x010, 0), (0x040, s.arg0), (0x048, s.arg1), (0x050, s.chunkOff), (0x058, s.chunkLen),
        (0x070, s.build.secret0), (0x078, s.build.secret1), (0x080, s.build.secret2), (0x088, s.build.defaultSeed)],
      hostReadAt p.1 8 s = s.give p.2) ∧
    (∃ v : Word, hostReadAt 0x018 8 s = { s with returned := v :: s.returned, draws := s.draws + 1 } ∧
      v.getLsbD 0 = true ∧ v.getLsbD 2 = false ∧ v.getLsbD 3 = false ∧ v.extractLsb' 4 4 = s.err ∧
      v.extractLsb' 12 52 = 0) ∧
    (∀ off ∈ [0x020, 0x028, 0x030, 0x038, 0x060, 0x068],
      ∃ v : Word, hostReadAt off 8 s = { s with returned := v :: s.returned, draws := s.draws + 1 }) ∧
    (∀ k w, w ∈ [1, 2, 4, 8] → k % w = 0 → k < s.build.bufBytes → ibufReadGives k w s) ∧
    (∀ off w, ((0x090 ≤ off ∧ off < 0x1000 ∧ w = 8) ∨ (0x1000 + s.build.bufBytes ≤ off ∧ w ∈ [1, 2, 4, 8])) → off % w = 0 →
      hostReadAt off w s = s.give 0)

/-- R70: a legal read changes nothing of the block: only the log of returned values and the count of draws. A bad access, which R67 lets raise an error, is not one. -/
def Obligations.ReadsHaveNoSideEffect : Prop :=
  ∀ (off w : Nat) (s : State), w ∈ [1, 2, 4, 8] → off % w = 0 → (off < 0x1000 → w = 8) →
    ∃ (v : Word) (d : Nat), hostReadAt off w s = { s with returned := v :: s.returned, draws := d }

/-- R64: a legal host write to IBUF of an idle block sets byte i of the value at index k + i and no other byte, and nothing else of the state; the same access read back gives the low bytes of the value. A legal read of IBUF, in every state and of each width, gives the little-endian value of its bytes; an undefined byte is left open (log entry 5). -/
def Obligations.IbufWriteIsLittleEndianAndReadsBack : Prop :=
  (∀ (k w : Nat) (s : State), w ∈ [1, 2, 4, 8] → k % w = 0 → k < s.build.bufBytes → ibufReadGives k w s) ∧
  ∀ (k w : Nat) (v : Word) (s : State), s.fsm = .idle → w ∈ [1, 2, 4, 8] → k % w = 0 → k < s.build.bufBytes →
    let t := hostWriteAt (0x1000 + k) w v s
    t = { s with ibuf := t.ibuf } ∧
    (∀ i < w, memGet t.ibuf (k + i) = some (v.extractLsb' (8 * i) 8)) ∧
    (∀ j, (j < k ∨ k + w ≤ j) → memGet t.ibuf j = memGet s.ibuf j) ∧
    hostReadAt (0x1000 + k) w t = t.give (BitVec.ofNat 64 (v.toNat % 2 ^ (8 * w)))

/-- R60, R34: a byte of IBUF changes only by a host write to an idle block that covers it, or by reset. -/
def Obligations.IbufChangesOnlyByHostWritesAndReset : Prop :=
  ∀ (s t : State) (k : Nat), step s = .next t → memGet t.ibuf k ≠ memGet s.ibuf k →
    nextMove s = some .reset ∨
    (s.fsm = .idle ∧ ∃ addr w v off, nextMove s = some (.hostWrite addr w v) ∧ portOffset s.build addr = some off ∧
      0x1000 ≤ off ∧ off - 0x1000 ≤ k ∧ k < off - 0x1000 + w)

/-- R65: two adjacent writes of w bytes leave the block as one write of 2w bytes does. -/
def Obligations.TwoNarrowWritesAreOneWideWrite : Prop :=
  ∀ (k w : Nat) (v : Word) (s : State), s.fsm = .idle → w ∈ [1, 2, 4] → k % (2 * w) = 0 →
    k + 2 * w ≤ s.build.bufBytes →
    hostWriteAt (0x1000 + (k + w)) w (v >>> (8 * w)) (hostWriteAt (0x1000 + k) w v s)
      = hostWriteAt (0x1000 + k) (2 * w) v s

/-! ### The datapath (40_mixing to 44_finalization) -/

/-- R121 (and R120): mum gives the two halves of the exact product, with the corner cases R121 lists. -/
def Obligations.MumIsTheExactProduct : Prop :=
  (∀ a b : Word, (mum a b).1.toNat + (mum a b).2.toNat * 2 ^ 64 = a.toNat * b.toNat) ∧
  (∀ a b : Word, mum a b = mum b a) ∧ (∀ x : Word, mum 0 x = (0, 0)) ∧ (∀ x : Word, mum 1 x = (x, 0)) ∧
  mum (0x8000000000000000 : Word) 2 = (0, 1) ∧
  mum (0xffffffffffffffff : Word) 0xffffffffffffffff = (1, 0xfffffffffffffffe) ∧
  (∀ a b : Word, (mum a b).2.toNat ≤ 2 ^ 64 - 2)

/-- R123 (and R122): mix is the XOR of the halves of the exact product, with the corner cases R123 lists. -/
def Obligations.MixFoldsTheProduct : Prop :=
  (∀ a b lo hi : Word, lo.toNat + hi.toNat * 2 ^ 64 = a.toNat * b.toNat → mix a b = lo ^^^ hi) ∧
  (∀ a b : Word, mix a b = mix b a) ∧ (∀ x : Word, mix 0 x = 0) ∧ (∀ x : Word, mix 1 x = x) ∧
  mix (0xffffffffffffffff : Word) 0xffffffffffffffff = 0xffffffffffffffff ∧
  mix (0xffffffffffffffff : Word) 2 = 0xffffffffffffffff ∧ mix (0x8000000000000000 : Word) 2 = 1 ∧
  ¬ Function.Injective (fun p : Word × Word => mix p.1 p.2)

/-- R142 (and R140): the corner cases of evolve_seed. -/
def Obligations.EvolveTakesTheCountByXor : Prop :=
  (∀ (b : Build) (s n : Word), evolveSeed b s n = s ^^^ mix (s ^^^ b.secret0) b.secret1 ^^^ n) ∧
  (∀ (b : Build) (s n m : Word), evolveSeed b s n ^^^ evolveSeed b s m = n ^^^ m) ∧
  (∀ (b : Build) (s : Word), evolveSeed b s 0 = s ^^^ mix (s ^^^ b.secret0) b.secret1) ∧
  (∀ (b : Build) (n : Word), evolveSeed b b.secret0 n = b.secret0 ^^^ n)

/-- R181 (the spec derives it from R180 and R123): the corner cases of finish. The number with the default secrets rests on them (log entry 2, PRESUMED). -/
def Obligations.FinishCornerCases : Prop :=
  (∀ (b : Build) (x y n : Word), finalize b x y n = mix (x ^^^ b.secret0 ^^^ n) (y ^^^ b.secret1)) ∧
  (∀ b : Build, finalize b 0 0 0 = mix b.secret0 b.secret1) ∧
  finalize Build.default 0 0 0 = 0xca813bf4c7abf0a9 ∧
  (∀ (b : Build) (x y n : Word), x ^^^ b.secret0 ^^^ n = 0 ∨ y = b.secret1 → finalize b x y n = 0) ∧
  (∀ (b : Build) (x y n m : Word), finalize b x y n = finalize b (x ^^^ n ^^^ m) y m)

/-- R131 and R130: the readers give the little-endian value of the chunk's bytes, and none outside the chunk; the halves of a 64-bit read are the two 32-bit reads. -/
def Obligations.ReadersAreLittleEndian : Prop :=
  (∀ (data : List Byte) (d site o : Nat), o + 8 ≤ data.length →
    ∃ v : Word, (⟨data.map some, d⟩ : Chunk).rd64 site o = some v ∧
      (∀ i < 8, some (v.extractLsb' (8 * i) 8) = data[o + i]?) ∧
      (⟨data.map some, d⟩ : Chunk).rd32 site o = some (v.extractLsb' 0 32) ∧
      (⟨data.map some, d⟩ : Chunk).rd32 site (o + 4) = some (v.extractLsb' 32 32)) ∧
  (∀ (data : List Byte) (d site o : Nat), o + 4 ≤ data.length →
    ∃ v : Half, (⟨data.map some, d⟩ : Chunk).rd32 site o = some v ∧
      ∀ i < 4, some (v.extractLsb' (8 * i) 8) = data[o + i]?) ∧
  (∀ (c : Chunk) (site o : Nat), (c.len < o + 8 → c.rd64 site o = none) ∧ (c.len < o + 4 → c.rd32 site o = none))

/-- R132: combine32 puts hi32 in bits 63:32 and lo32 in bits 31:0, with the rule's example. -/
def Obligations.CombineThirtyTwoPlacesTheHalves : Prop :=
  (∀ hi lo : Half, (combine32 hi lo).toNat = hi.toNat * 2 ^ 32 + lo.toNat) ∧
  (∀ hi lo : Half, (combine32 hi lo).extractLsb' 32 32 = hi ∧ (combine32 hi lo).extractLsb' 0 32 = lo) ∧
  combine32 (0x03020100 : Half) 0x0f0e0d0c = 0x030201000f0e0d0c

/-- R163, R133: no chunk, defined or not, makes the engine read outside it. -/
def Obligations.CoreNeverReadsOutsideTheChunk : Prop :=
  ∀ (b : Build) (c : Chunk) (x y seed : Word), (compress b c x y seed).isSome = true

/-- R150: on every byte list the datapath's engine gives the values of the pseudocode, written a second time over natural numbers (Sys2Proof/Machine/Reference.lean). -/
def Obligations.CoreComputesThePseudocode : Prop :=
  ∀ (b : Build) (data : List Byte) (d : Nat) (x y seed : Word),
    ∃ x' y' seed' : Word, compress b ⟨data.map some, d⟩ x y seed = some (x', y', seed') ∧
      (x'.toNat, y'.toNat, seed'.toNat) = Reference.core b data x.toNat y.toNat seed.toNat

/-- R151, R152, R153, R154: the band steps of chunks of at most 16 bytes, byte by byte, which leave the seed as it is, and the final step that follows them. -/
def Obligations.ShortBandSteps : Prop :=
  (∀ (c : Chunk) (x y : Word), c.len = 0 → shortStep c x y = some (x, y)) ∧
  (∀ (data : List Byte) (d : Nat) (x y : Word), 1 ≤ data.length → data.length ≤ 3 →
    ∃ w : Word, shortStep ⟨data.map some, d⟩ x y = some (x ^^^ w, y) ∧
      some (w.extractLsb' 56 8) = data[0]? ∧ some (w.extractLsb' 32 8) = data[data.length / 2]? ∧
      some (w.extractLsb' 0 8) = data[data.length - 1]? ∧ w.extractLsb' 8 24 = 0 ∧ w.extractLsb' 40 16 = 0) ∧
  (∀ (data : List Byte) (d : Nat) (x y : Word), 4 ≤ data.length → data.length ≤ 7 →
    ∃ w : Word, shortStep ⟨data.map some, d⟩ x y = some (x ^^^ w, y ^^^ w) ∧
      w.toNat = Reference.rd32 data 0 * 2 ^ 32 + Reference.rd32 data (data.length - 4)) ∧
  (∀ (data : List Byte) (d : Nat) (x y : Word), 8 ≤ data.length → data.length ≤ 16 →
    ∃ w z : Word, shortStep ⟨data.map some, d⟩ x y = some (x ^^^ w, y ^^^ z) ∧
      w.toNat = Reference.rd32 data 0 * 2 ^ 32 + Reference.rd32 data (data.length - 4) ∧
      z.toNat = Reference.rd32 data 4 * 2 ^ 32 + Reference.rd32 data (data.length - 8)) ∧
  (∀ (b : Build) (c : Chunk) (x y seed : Word), c.len ≤ 16 → ∃ r, shortStep c x y = some r ∧
    compress b c x y seed
      = some ((mum (r.1 ^^^ b.secret1) (r.2 ^^^ seed)).1, (mum (r.1 ^^^ b.secret1) (r.2 ^^^ seed)).2, seed))

/-- R162, R165: the class of each length, and where the bulk stage leaves off: with i bytes left, i < 48, as the path by length says. -/
def Obligations.BandClassesAndPathByLength : Prop :=
  (∀ n : Nat, bandClass n = 0 ↔ n = 0) ∧ (∀ n : Nat, bandClass n = 1 ↔ 1 ≤ n ∧ n ≤ 3) ∧
  (∀ n : Nat, bandClass n = 2 ↔ 4 ≤ n ∧ n ≤ 7) ∧ (∀ n : Nat, bandClass n = 3 ↔ 8 ≤ n ∧ n ≤ 15) ∧
  (∀ n : Nat, bandClass n = 4 ↔ n = 16) ∧ (∀ n : Nat, bandClass n = 5 ↔ 17 ≤ n ∧ n ≤ 32) ∧
  (∀ n : Nat, bandClass n = 6 ↔ 33 ≤ n ∧ n ≤ 48) ∧ (∀ n : Nat, bandClass n = 7 ↔ 49 ≤ n ∧ n ≤ 95) ∧
  (∀ n : Nat, bandClass n = 8 ↔ 96 ≤ n) ∧ (∀ n : Nat, bandClass n ≤ 8) ∧
  (∀ n : Nat, 48 < n → n - bulkEnd n = (if 48 ≤ n % 96 then n % 96 - 48 else n % 96) ∧ n - bulkEnd n < 48 ∧
    bulkEnd n ≤ n)

/-! ### The commands (45_oneshot, 46_streaming, 47_primitive_commands) -/

/-- R220: NOP has the word 0, is accepted by an idle block without error, and completes with no effect. -/
def Obligations.NopCompletesWithNoEffect : Prop :=
  encode .nop = 0x000 ∧ ∀ s : State, acceptedAlways 0x000 s ∧ exec .nop s = .next s

/-- R201: INIT and INIT.DS start a stream with the seed from ARG0 or DEFAULT_SEED and change nothing else; no operand check turns them away. -/
def Obligations.InitStartsAStream : Prop :=
  encode .init = 0x001 ∧ encode .initDs = 0x101 ∧
  ∀ s : State, acceptedAlways 0x001 s ∧ acceptedAlways 0x101 s ∧
    exec .init s = .next { s with seed := s.arg0, accA := 0, accB := 0, size := 0 } ∧
    exec .initDs s = .next { s with seed := s.build.defaultSeed, accA := 0, accB := 0, size := 0 }

/-- R202: WRITE folds the chunk's bytes, its seed evolved by the new size, and changes nothing but the streaming registers, OVF and BAND; CHUNK_RANGE is its one operand check; an undefined byte of the chunk records the model fault. -/
def Obligations.WriteFoldsTheChunk : Prop :=
  encode .write = 0x002 ∧
  (∀ s : State, acceptedInRange 0x002 s) ∧
  (∀ (s : State) (data : List Byte), chunkHolds s data → foldsBytes .write s data) ∧
  (∀ s : State, chunkUndefined s → ∃ t, exec .write s = .next t ∧ t.modelFault = some .ibufUndefined)

/-- R204: in every state WRITE completes with the size added modulo 2^64, OVF set where the exact sum reaches 2^64 and else as it was, and no error. -/
def Obligations.WriteCountsWithWrapAndOverflowFlag : Prop :=
  ∀ s : State, ∃ t, exec .write s = .next t ∧
    t.size.toNat = (s.size.toNat + s.chunkLen.toNat) % 2 ^ 64 ∧
    (t.ovf = true ↔ s.ovf = true ∨ 2 ^ 64 ≤ s.size.toNat + s.chunkLen.toNat) ∧
    t.err = s.err ∧ t.band.toNat = bandClass s.chunkLen.toNat

/-- R205: WRITEI of each width folds the little-endian bytes of ARG1:ARG0, ARG1 counting only above 8 bytes, and is accepted whatever the chunk registers hold. -/
def Obligations.IntegerWritesFoldTheirBytes : Prop :=
  encode .writei8 = 0x003 ∧ encode .writei16 = 0x203 ∧ encode .writei32 = 0x403 ∧ encode .writei64 = 0x603 ∧
  encode .writei128 = 0x803 ∧
  ∀ (s : State) (i : Instr) (n : Nat),
    (i, n) ∈ [(Instr.writei8, 1), (.writei16, 2), (.writei32, 4), (.writei64, 8), (.writei128, 16)] →
    acceptedAlways (encode i) s ∧ foldsBytes i s ((List.range n).map (integerByte s))

/-- R206: from equal streaming states, WRITEI and a WRITE of the same bytes stored in IBUF give the same SEED, ACC_A, ACC_B, SIZE, OVF and BAND. -/
def Obligations.IntegerWriteEqualsByteWrite : Prop :=
  ∀ (s u : State) (i : Instr) (n : Nat),
    (i, n) ∈ [(Instr.writei8, 1), (.writei16, 2), (.writei32, 4), (.writei64, 8), (.writei128, 16)] →
    u.build = s.build → u.seed = s.seed → u.accA = s.accA → u.accB = s.accB → u.size = s.size → u.ovf = s.ovf →
    chunkHolds u ((List.range n).map (integerByte s)) →
    ∃ s' u', exec i s = .next s' ∧ exec .write u = .next u' ∧ u'.seed = s'.seed ∧ u'.accA = s'.accA ∧
      u'.accB = s'.accB ∧ u'.size = s'.size ∧ u'.ovf = s'.ovf ∧ u'.band = s'.band

/-- R207: FINISH gives the digest of the streaming registers in RES0, 0 in RES1, and changes nothing else, so it may be repeated; no operand check turns it away. -/
def Obligations.FinishGivesTheStreamDigest : Prop :=
  encode .finish = 0x004 ∧
  ∀ s : State, acceptedAlways 0x004 s ∧
    ∃ h : Word, h.toNat = Reference.finish s.build s.accA.toNat s.accB.toNat s.size.toNat ∧
      exec .finish s = .next { s with res0 := h, res1 := 0 } ∧
      exec .finish { s with res0 := h, res1 := 0 } = .next { s with res0 := h, res1 := 0 }

/-- R190: HASH and HASH.DS give the one-shot digest of the chunk's bytes under ARG0 or DEFAULT_SEED, and change nothing but RES0, RES1 and BAND; CHUNK_RANGE is their one operand check; an undefined byte of the chunk records the model fault. -/
def Obligations.HashGivesTheOneShotDigest : Prop :=
  encode .hash = 0x005 ∧ encode .hashDs = 0x105 ∧
  (∀ s : State, acceptedInRange 0x005 s ∧ acceptedInRange 0x105 s) ∧
  (∀ (s : State) (data : List Byte), chunkHolds s data → ∃ h hDs : Word,
    h.toNat = Reference.hash s.build s.arg0.toNat data ∧
    hDs.toNat = Reference.hash s.build s.build.defaultSeed.toNat data ∧
    exec .hash s = .next { s with res0 := h, res1 := 0, band := BitVec.ofNat 4 (bandClass data.length) } ∧
    exec .hashDs s = .next { s with res0 := hDs, res1 := 0, band := BitVec.ofNat 4 (bandClass data.length) }) ∧
  (∀ s : State, chunkUndefined s → ∃ t u, exec .hash s = .next t ∧ exec .hashDs s = .next u ∧
    t.modelFault = some .ibufUndefined ∧ u.modelFault = some .ibufUndefined)

/-- R192: two HASH commands with equal seeds and equal chunk bytes write the same RES0, whatever CHUNK_OFF is and whatever else the two states hold. -/
def Obligations.HashIsDeterministic : Prop :=
  ∀ (s u : State) (data : List Byte), u.build = s.build → chunkHolds s data → chunkHolds u data →
    (u.arg0 = s.arg0 → ∃ s' u', exec .hash s = .next s' ∧ exec .hash u = .next u' ∧ u'.res0 = s'.res0) ∧
    (∃ s' u', exec .hashDs s = .next s' ∧ exec .hashDs u = .next u' ∧ u'.res0 = s'.res0) ∧
    (s.arg0 = s.build.defaultSeed → exec .hash s = exec .hashDs s)

/-- R221, R222, R223: MUM, MIX and EVOLVE by the exact product of their operands; they write RES0 and RES1 and nothing else, and no operand check turns them away. -/
def Obligations.PrimitiveProducts : Prop :=
  encode .mum = 0x010 ∧ encode .mix = 0x011 ∧ encode .evolve = 0x012 ∧
  ∀ s : State, acceptedAlways 0x010 s ∧ acceptedAlways 0x011 s ∧ acceptedAlways 0x012 s ∧
    ∃ lo hi el eh : Word,
      lo.toNat + hi.toNat * 2 ^ 64 = s.arg0.toNat * s.arg1.toNat ∧
      el.toNat + eh.toNat * 2 ^ 64 = (s.arg0 ^^^ s.build.secret0).toNat * s.build.secret1.toNat ∧
      exec .mum s = .next { s with res0 := lo, res1 := hi } ∧
      exec .mix s = .next { s with res0 := lo ^^^ hi, res1 := 0 } ∧
      exec .evolve s = .next { s with res0 := s.arg0 ^^^ (el ^^^ eh) ^^^ s.arg1, res1 := 0 }

/-- R224, R225: READ32 and READ64 give the little-endian bytes at chunk offset ARG0 of a defined chunk, and write RES0 and RES1 and nothing else; their acceptance checks are CHUNK_RANGE, then READ_BOUNDS. A chunk with an undefined byte is in UndefinedBytesAreRecorded. -/
def Obligations.ReadCommandsGiveChunkBytes : Prop :=
  encode .read32 = 0x013 ∧ encode .read64 = 0x014 ∧
  (∀ s : State, acceptedInBounds 4 0x013 s ∧ acceptedInBounds 8 0x014 s) ∧
  (∀ (s : State) (data : List Byte), chunkHolds s data → s.arg0.toNat + 4 ≤ data.length →
    ∃ v : Word, v.toNat = Reference.rd32 data s.arg0.toNat ∧ exec .read32 s = .next { s with res0 := v, res1 := 0 }) ∧
  (∀ (s : State) (data : List Byte), chunkHolds s data → s.arg0.toNat + 8 ≤ data.length →
    ∃ v : Word, v.toNat = Reference.rd64 data s.arg0.toNat ∧ exec .read64 s = .next { s with res0 := v, res1 := 0 })

/-- R226: CORE runs the engine on the streaming registers and the chunk's bytes, with no seed evolution, and changes nothing but SEED, ACC_A, ACC_B and BAND; CHUNK_RANGE is its one operand check; an undefined byte of the chunk records the model fault. -/
def Obligations.CoreCommandRunsTheEngine : Prop :=
  encode .core = 0x015 ∧
  (∀ s : State, acceptedInRange 0x015 s) ∧
  (∀ (s : State) (data : List Byte), chunkHolds s data → ∃ x a b : Word,
    (a.toNat, b.toNat, x.toNat) = Reference.core s.build data s.accA.toNat s.accB.toNat s.seed.toNat ∧
    exec .core s = .next { s with seed := x, accA := a, accB := b, band := BitVec.ofNat 4 (bandClass data.length) }) ∧
  (∀ s : State, chunkUndefined s → ∃ t, exec .core s = .next t ∧ t.modelFault = some .ibufUndefined) ∧
  (∀ s : State, 1 ≤ s.chunkLen.toNat → s.chunkLen.toNat ≤ 3 → s.seed = 0 → s.accA = 0 → s.accB = 0 →
    ∃ t, exec .core s = .next t ∧ t.seed = 0 ∧ t.accA = 0 ∧ t.accB = 0)

/-- R226, corner case: with SIZE and SEED set by hand as WRITE would set them, CORE equals WRITE, but for OVF. -/
def Obligations.EvolveThenCoreEqualsWrite : Prop :=
  ∀ (s : State) (data : List Byte), chunkHolds s data → ∃ t u, exec .write s = .next t ∧
    exec .core { s with size := sizeAfter data.length s, seed := evolveSeed s.build s.seed (sizeAfter data.length s) } = .next u ∧
    t = { u with ovf := t.ovf }

/-- R203 (and R151): a WRITE of no bytes keeps SIZE, evolves SEED and applies the final product. -/
def Obligations.EmptyWriteChangesTheState : Prop :=
  ∀ s : State, s.chunkLen = 0 → ∃ x : Word, x = evolveSeed s.build s.seed s.size ∧
    exec .write s = .next { s with
      seed := x
      accA := (mum (s.accA ^^^ s.build.secret1) (s.accB ^^^ x)).1
      accB := (mum (s.accA ^^^ s.build.secret1) (s.accB ^^^ x)).2
      band := 0 }

/-- R211: FINISH of a stream with ACC_A = ACC_B = SIZE = 0 gives mix(S[0], S[1]) whatever the seed, which with the default secrets (log entry 2, PRESUMED) is 0xca813bf4c7abf0a9. -/
def Obligations.EmptyStreamDigest : Prop :=
  (∀ s : State, s.accA = 0 → s.accB = 0 → s.size = 0 →
    exec .finish s = .next { s with res0 := mix s.build.secret0 s.build.secret1, res1 := 0 }) ∧
  mix Build.default.secret0 Build.default.secret1 = 0xca813bf4c7abf0a9

/-- R208: the central correctness contract. From an idle block without error and a legal chunk of defined bytes, INIT, WRITE, FINISH and HASH reach the same RES0, the digest of the pseudocode, through the port and the latch; so do INIT.DS, WRITE, FINISH and HASH.DS. -/
def Obligations.OneWriteEqualsOneShot : Prop :=
  ∀ (s : State) (data : List Byte), s.fsm = .idle → s.err = 0 → chunkHolds s data →
    s.chunkOff.toNat + s.chunkLen.toNat ≤ s.build.bufBytes →
    ∀ first digest seedUsed, (first, digest, seedUsed) ∈ [(Instr.init, Instr.hash, s.arg0), (.initDs, .hashDs, s.build.defaultSeed)] →
    let streamed := scriptCmd s.build first ++ [.complete] ++ scriptCmd s.build .write ++ [.complete]
      ++ scriptCmd s.build .finish ++ [.complete]
    let oneShot := scriptCmd s.build digest ++ [.complete]
    ∃ t u,
      Host.Core.run core 6 { s with agenda := streamed } = .next t ∧
      Host.Core.run core 2 { s with agenda := oneShot } = .next u ∧
      t.fsm = .idle ∧ u.fsm = .idle ∧ t.err = 0 ∧ u.err = 0 ∧
      t.res0 = u.res0 ∧ u.res0.toNat = Reference.hash s.build seedUsed.toNat data

/-- R210 (and R96): what a command does to the streaming registers and FINISH to RES0 depends only on its operands, so a stream saved by reading its four registers and written back later goes on as if it had never left the block, whatever else the two states hold. WRITE and CORE, which fold their chunk into the stream, are compared on the same defined bytes, INIT and WRITEI on the same ARG0, WRITEI.128 on the same ARG1 too; no other command needs equal operands. -/
def Obligations.StreamDependsOnlyOnItsRegisters : Prop :=
  ∀ (s u : State) (i : Instr), u.build = s.build →
    u.seed = s.seed → u.accA = s.accA → u.accB = s.accB → u.size = s.size →
    (i ∈ [Instr.write, .core] → ∃ data, chunkHolds s data ∧ chunkHolds u data) →
    (i ∈ [Instr.init, .writei8, .writei16, .writei32, .writei64, .writei128] → u.arg0 = s.arg0) →
    (i = .writei128 → u.arg1 = s.arg1) →
    ∃ s' u', exec i s = .next s' ∧ exec i u = .next u' ∧ u'.seed = s'.seed ∧ u'.accA = s'.accA ∧ u'.accB = s'.accB ∧
      u'.size = s'.size ∧ (i = .finish → u'.res0 = s'.res0)

/-- R96, R227, R39: the frame of every command. No command writes the latch, the operand registers, the constants or IBUF; each writes only what R96 lists for it. ERR stays where the acceptance checks hold, the model fault and the draws where no chunk of IBUF is read. -/
def Obligations.CommandsWriteOnlyWhatTheTableLists : Prop :=
  ∀ (i : Instr) (s t : State), exec i s = .next t →
    t.build = s.build ∧ t.fsm = s.fsm ∧ t.pend = s.pend ∧ t.arg0 = s.arg0 ∧ t.arg1 = s.arg1 ∧
    t.chunkOff = s.chunkOff ∧ t.chunkLen = s.chunkLen ∧ t.agenda = s.agenda ∧ t.returned = s.returned ∧
    (∀ k, memGet t.ibuf k = memGet s.ibuf k) ∧
    (i ∉ [Instr.init, .initDs, .write, .writei8, .writei16, .writei32, .writei64, .writei128, .core] →
      t.seed = s.seed ∧ t.accA = s.accA ∧ t.accB = s.accB) ∧
    (i ∉ [Instr.init, .initDs, .write, .writei8, .writei16, .writei32, .writei64, .writei128] → t.size = s.size) ∧
    (i ∉ [Instr.finish, .hash, .hashDs, .mum, .mix, .evolve, .read32, .read64] → t.res0 = s.res0 ∧ t.res1 = s.res1) ∧
    (i ∉ [Instr.write, .writei8, .writei16, .writei32, .writei64, .writei128] → t.ovf = s.ovf) ∧
    (i ∉ [Instr.write, .writei8, .writei16, .writei32, .writei64, .writei128, .hash, .hashDs, .core] → t.band = s.band) ∧
    (operandCheck i s = none → t.err = s.err) ∧
    (i ∉ [Instr.write, .hash, .hashDs, .core, .read32, .read64] → t.modelFault = s.modelFault ∧ t.draws = s.draws)

/-- R34, R164, R281: the completion of a chunk command records the model fault exactly where some byte of its chunk is undefined; READ32 and READ64 are chunk commands too, whichever bytes they read (log entry 12). A fault once recorded stays. READ32 and READ64 complete with it, and each byte read that is defined stands in RES0 (log entry 6). -/
def Obligations.UndefinedBytesAreRecorded : Prop :=
  (∀ (i : Instr) (s t : State), i ∈ [Instr.write, .hash, .hashDs, .core] → exec i s = .next t →
    (t.modelFault = some .ibufUndefined ↔ s.modelFault = some .ibufUndefined ∨
      ∃ o < s.chunkLen.toNat, memGet s.ibuf (s.chunkOff.toNat + o) = none)) ∧
  (∀ (i : Instr) (w : Nat) (s : State), (i, w) ∈ [(Instr.read32, 4), (.read64, 8)] → s.arg0.toNat + w ≤ s.chunkLen.toNat →
    ∃ t, exec i s = .next t ∧
    (t.modelFault = some .ibufUndefined ↔ s.modelFault = some .ibufUndefined ∨
      ∃ o < s.chunkLen.toNat, memGet s.ibuf (s.chunkOff.toNat + o) = none) ∧
    t.res1 = 0 ∧ t.res0.toNat < 2 ^ (8 * w) ∧
    ∀ j < w, ∀ b, memGet s.ibuf (s.chunkOff.toNat + (s.arg0.toNat + j)) = some b → t.res0.extractLsb' (8 * j) 8 = b)
end

