-- ==== Sys2Proof/Laws/Readers.lean ====
section
/-! SUPPORT. The readers of a chunk: when they answer, and what they read of a chunk whose bytes are all defined. -/

namespace Sys2Proof.Machine

@[simp] theorem chunkOf_len (s : State) : (chunkOf s).len = s.chunkLen.toNat := by
  simp [chunkOf, Chunk.len]

@[simp] theorem chunkOf_draw (s : State) : (chunkOf s).draw = s.draws := rfl

@[simp] theorem integerChunk_len (n : Nat) (s : State) : (integerChunk n s).len = n := by
  simp [integerChunk, Chunk.len, leBytes]

/-- WRITEI reads no IBUF byte, so none of its bytes is undefined. -/
@[simp] theorem integerChunk_hasUndefined (n : Nat) (s : State) :
    (integerChunk n s).hasUndefined = false := by
  simp [integerChunk, Chunk.hasUndefined]

/-- A 64-bit read inside the chunk answers. -/
theorem rd64_of_le {c : Chunk} {site o : Nat} (h : o + 8 ≤ c.len) :
    c.rd64 site o = some (BitVec.ofNat 64 (c.memRead site o 8)) := by
  simp [Chunk.rd64, Nat.not_lt.2 h]

/-- A 32-bit read inside the chunk answers. -/
theorem rd32_of_le {c : Chunk} {site o : Nat} (h : o + 4 ≤ c.len) :
    c.rd32 site o = some (BitVec.ofNat 32 (c.memRead site o 4)) := by
  simp [Chunk.rd32, Nat.not_lt.2 h]

/-- A byte read inside the chunk answers. -/
theorem rd8_of_lt {c : Chunk} {site o : Nat} (h : o < c.len) :
    c.rd8 site o = some (BitVec.ofNat 64 (c.memRead site o 1)) := by
  simp [Chunk.rd8]
  omega

/-- A 64-bit read past the chunk's end does not answer (R246). -/
theorem rd64_of_lt {c : Chunk} {site o : Nat} (h : c.len < o + 8) : c.rd64 site o = none := by
  simp [Chunk.rd64, h]

/-- A 32-bit read past the chunk's end does not answer (R246). -/
theorem rd32_of_lt {c : Chunk} {site o : Nat} (h : c.len < o + 4) : c.rd32 site o = none := by
  simp [Chunk.rd32, h]

@[simp] theorem leNat_nil : leNat [] = 0 := rfl

@[simp] theorem leNat_cons (b : Byte) (bs : List Byte) : leNat (b :: bs) = b.toNat + 256 * leNat bs := rfl

/-- `n` bytes make a number below 256^n. -/
theorem leNat_lt (bs : List Byte) : leNat bs < 256 ^ bs.length := by
  induction bs with
  | nil => simp
  | cons b rest ih =>
    simp only [leNat_cons, List.length_cons, Nat.pow_succ]
    have := b.isLt
    omega

/-- A defined byte of a chunk is read as it is, whatever the read site and the draw. -/
theorem byteAt_defined {c : Chunk} {site o : Nat} {b : Byte} (h : c.cells[o]? = some (some b)) :
    c.byteAt site o = b := by
  simp [Chunk.byteAt, h]

/-- Chunks of one length whose cells are the same defined bytes are read alike, so the draw does not count. -/
theorem byteAt_map_some {data : List Byte} {d site o : Nat} {b : Byte} (h : data[o]? = some b) :
    (⟨data.map some, d⟩ : Chunk).byteAt site o = b := by
  apply byteAt_defined
  simp [h]

@[simp] theorem len_map_some (data : List Byte) (d : Nat) :
    (⟨data.map some, d⟩ : Chunk).len = data.length := by
  simp [Chunk.len]

@[simp] theorem hasUndefined_map_some (data : List Byte) (d : Nat) :
    (⟨data.map some, d⟩ : Chunk).hasUndefined = false := by
  simp [Chunk.hasUndefined]

end Sys2Proof.Machine
end

