-- ==== Sys2Proof/Laws/State.lean ====
section
/-! SUPPORT. What each named update does to each field of State, one lemma per field, so that no later proof unfolds a record update. -/

namespace Sys2Proof.Machine

variable (s : State)

/-! ### raise -/

@[simp] theorem raise_build (e : ErrorCode) : (s.raise e).build = s.build := rfl
@[simp] theorem raise_fsm (e : ErrorCode) : (s.raise e).fsm = s.fsm := rfl
@[simp] theorem raise_pend (e : ErrorCode) : (s.raise e).pend = s.pend := rfl
@[simp] theorem raise_seed (e : ErrorCode) : (s.raise e).seed = s.seed := rfl
@[simp] theorem raise_accA (e : ErrorCode) : (s.raise e).accA = s.accA := rfl
@[simp] theorem raise_accB (e : ErrorCode) : (s.raise e).accB = s.accB := rfl
@[simp] theorem raise_size (e : ErrorCode) : (s.raise e).size = s.size := rfl
@[simp] theorem raise_arg0 (e : ErrorCode) : (s.raise e).arg0 = s.arg0 := rfl
@[simp] theorem raise_arg1 (e : ErrorCode) : (s.raise e).arg1 = s.arg1 := rfl
@[simp] theorem raise_chunkOff (e : ErrorCode) : (s.raise e).chunkOff = s.chunkOff := rfl
@[simp] theorem raise_chunkLen (e : ErrorCode) : (s.raise e).chunkLen = s.chunkLen := rfl
@[simp] theorem raise_res0 (e : ErrorCode) : (s.raise e).res0 = s.res0 := rfl
@[simp] theorem raise_res1 (e : ErrorCode) : (s.raise e).res1 = s.res1 := rfl
@[simp] theorem raise_ovf (e : ErrorCode) : (s.raise e).ovf = s.ovf := rfl
@[simp] theorem raise_err (e : ErrorCode) : (s.raise e).err = if s.err = 0 then e.code else s.err := rfl
@[simp] theorem raise_band (e : ErrorCode) : (s.raise e).band = s.band := rfl
@[simp] theorem raise_ibuf (e : ErrorCode) : (s.raise e).ibuf = s.ibuf := rfl
@[simp] theorem raise_modelFault (e : ErrorCode) : (s.raise e).modelFault = s.modelFault := rfl
@[simp] theorem raise_agenda (e : ErrorCode) : (s.raise e).agenda = s.agenda := rfl
@[simp] theorem raise_returned (e : ErrorCode) : (s.raise e).returned = s.returned := rfl
@[simp] theorem raise_draws (e : ErrorCode) : (s.raise e).draws = s.draws := rfl

/-! ### clearErr -/

@[simp] theorem clearErr_build : (s.clearErr).build = s.build := rfl
@[simp] theorem clearErr_fsm : (s.clearErr).fsm = s.fsm := rfl
@[simp] theorem clearErr_pend : (s.clearErr).pend = s.pend := rfl
@[simp] theorem clearErr_seed : (s.clearErr).seed = s.seed := rfl
@[simp] theorem clearErr_accA : (s.clearErr).accA = s.accA := rfl
@[simp] theorem clearErr_accB : (s.clearErr).accB = s.accB := rfl
@[simp] theorem clearErr_size : (s.clearErr).size = s.size := rfl
@[simp] theorem clearErr_arg0 : (s.clearErr).arg0 = s.arg0 := rfl
@[simp] theorem clearErr_arg1 : (s.clearErr).arg1 = s.arg1 := rfl
@[simp] theorem clearErr_chunkOff : (s.clearErr).chunkOff = s.chunkOff := rfl
@[simp] theorem clearErr_chunkLen : (s.clearErr).chunkLen = s.chunkLen := rfl
@[simp] theorem clearErr_res0 : (s.clearErr).res0 = s.res0 := rfl
@[simp] theorem clearErr_res1 : (s.clearErr).res1 = s.res1 := rfl
@[simp] theorem clearErr_ovf : (s.clearErr).ovf = s.ovf := rfl
@[simp] theorem clearErr_err : (s.clearErr).err = 0 := rfl
@[simp] theorem clearErr_band : (s.clearErr).band = s.band := rfl
@[simp] theorem clearErr_ibuf : (s.clearErr).ibuf = s.ibuf := rfl
@[simp] theorem clearErr_modelFault : (s.clearErr).modelFault = s.modelFault := rfl
@[simp] theorem clearErr_agenda : (s.clearErr).agenda = s.agenda := rfl
@[simp] theorem clearErr_returned : (s.clearErr).returned = s.returned := rfl
@[simp] theorem clearErr_draws : (s.clearErr).draws = s.draws := rfl

/-! ### latch -/

@[simp] theorem latch_build (c : Word) : (s.latch c).build = s.build := rfl
@[simp] theorem latch_fsm (c : Word) : (s.latch c).fsm = .exec := rfl
@[simp] theorem latch_pend (c : Word) : (s.latch c).pend = some c := rfl
@[simp] theorem latch_seed (c : Word) : (s.latch c).seed = s.seed := rfl
@[simp] theorem latch_accA (c : Word) : (s.latch c).accA = s.accA := rfl
@[simp] theorem latch_accB (c : Word) : (s.latch c).accB = s.accB := rfl
@[simp] theorem latch_size (c : Word) : (s.latch c).size = s.size := rfl
@[simp] theorem latch_arg0 (c : Word) : (s.latch c).arg0 = s.arg0 := rfl
@[simp] theorem latch_arg1 (c : Word) : (s.latch c).arg1 = s.arg1 := rfl
@[simp] theorem latch_chunkOff (c : Word) : (s.latch c).chunkOff = s.chunkOff := rfl
@[simp] theorem latch_chunkLen (c : Word) : (s.latch c).chunkLen = s.chunkLen := rfl
@[simp] theorem latch_res0 (c : Word) : (s.latch c).res0 = s.res0 := rfl
@[simp] theorem latch_res1 (c : Word) : (s.latch c).res1 = s.res1 := rfl
@[simp] theorem latch_ovf (c : Word) : (s.latch c).ovf = s.ovf := rfl
@[simp] theorem latch_err (c : Word) : (s.latch c).err = s.err := rfl
@[simp] theorem latch_band (c : Word) : (s.latch c).band = s.band := rfl
@[simp] theorem latch_ibuf (c : Word) : (s.latch c).ibuf = s.ibuf := rfl
@[simp] theorem latch_modelFault (c : Word) : (s.latch c).modelFault = s.modelFault := rfl
@[simp] theorem latch_agenda (c : Word) : (s.latch c).agenda = s.agenda := rfl
@[simp] theorem latch_returned (c : Word) : (s.latch c).returned = s.returned := rfl
@[simp] theorem latch_draws (c : Word) : (s.latch c).draws = s.draws := rfl

/-! ### retire -/

@[simp] theorem retire_build : (s.retire).build = s.build := rfl
@[simp] theorem retire_fsm : (s.retire).fsm = .idle := rfl
@[simp] theorem retire_pend : (s.retire).pend = none := rfl
@[simp] theorem retire_seed : (s.retire).seed = s.seed := rfl
@[simp] theorem retire_accA : (s.retire).accA = s.accA := rfl
@[simp] theorem retire_accB : (s.retire).accB = s.accB := rfl
@[simp] theorem retire_size : (s.retire).size = s.size := rfl
@[simp] theorem retire_arg0 : (s.retire).arg0 = s.arg0 := rfl
@[simp] theorem retire_arg1 : (s.retire).arg1 = s.arg1 := rfl
@[simp] theorem retire_chunkOff : (s.retire).chunkOff = s.chunkOff := rfl
@[simp] theorem retire_chunkLen : (s.retire).chunkLen = s.chunkLen := rfl
@[simp] theorem retire_res0 : (s.retire).res0 = s.res0 := rfl
@[simp] theorem retire_res1 : (s.retire).res1 = s.res1 := rfl
@[simp] theorem retire_ovf : (s.retire).ovf = s.ovf := rfl
@[simp] theorem retire_err : (s.retire).err = s.err := rfl
@[simp] theorem retire_band : (s.retire).band = s.band := rfl
@[simp] theorem retire_ibuf : (s.retire).ibuf = s.ibuf := rfl
@[simp] theorem retire_modelFault : (s.retire).modelFault = s.modelFault := rfl
@[simp] theorem retire_agenda : (s.retire).agenda = s.agenda := rfl
@[simp] theorem retire_returned : (s.retire).returned = s.returned := rfl
@[simp] theorem retire_draws : (s.retire).draws = s.draws := rfl

/-! ### popMove -/

@[simp] theorem popMove_build : (s.popMove).build = s.build := rfl
@[simp] theorem popMove_fsm : (s.popMove).fsm = s.fsm := rfl
@[simp] theorem popMove_pend : (s.popMove).pend = s.pend := rfl
@[simp] theorem popMove_seed : (s.popMove).seed = s.seed := rfl
@[simp] theorem popMove_accA : (s.popMove).accA = s.accA := rfl
@[simp] theorem popMove_accB : (s.popMove).accB = s.accB := rfl
@[simp] theorem popMove_size : (s.popMove).size = s.size := rfl
@[simp] theorem popMove_arg0 : (s.popMove).arg0 = s.arg0 := rfl
@[simp] theorem popMove_arg1 : (s.popMove).arg1 = s.arg1 := rfl
@[simp] theorem popMove_chunkOff : (s.popMove).chunkOff = s.chunkOff := rfl
@[simp] theorem popMove_chunkLen : (s.popMove).chunkLen = s.chunkLen := rfl
@[simp] theorem popMove_res0 : (s.popMove).res0 = s.res0 := rfl
@[simp] theorem popMove_res1 : (s.popMove).res1 = s.res1 := rfl
@[simp] theorem popMove_ovf : (s.popMove).ovf = s.ovf := rfl
@[simp] theorem popMove_err : (s.popMove).err = s.err := rfl
@[simp] theorem popMove_band : (s.popMove).band = s.band := rfl
@[simp] theorem popMove_ibuf : (s.popMove).ibuf = s.ibuf := rfl
@[simp] theorem popMove_modelFault : (s.popMove).modelFault = s.modelFault := rfl
@[simp] theorem popMove_agenda : (s.popMove).agenda = s.agenda.tail := rfl
@[simp] theorem popMove_returned : (s.popMove).returned = s.returned := rfl
@[simp] theorem popMove_draws : (s.popMove).draws = s.draws := rfl

/-! ### give -/

@[simp] theorem give_build (v : Word) : (s.give v).build = s.build := rfl
@[simp] theorem give_fsm (v : Word) : (s.give v).fsm = s.fsm := rfl
@[simp] theorem give_pend (v : Word) : (s.give v).pend = s.pend := rfl
@[simp] theorem give_seed (v : Word) : (s.give v).seed = s.seed := rfl
@[simp] theorem give_accA (v : Word) : (s.give v).accA = s.accA := rfl
@[simp] theorem give_accB (v : Word) : (s.give v).accB = s.accB := rfl
@[simp] theorem give_size (v : Word) : (s.give v).size = s.size := rfl
@[simp] theorem give_arg0 (v : Word) : (s.give v).arg0 = s.arg0 := rfl
@[simp] theorem give_arg1 (v : Word) : (s.give v).arg1 = s.arg1 := rfl
@[simp] theorem give_chunkOff (v : Word) : (s.give v).chunkOff = s.chunkOff := rfl
@[simp] theorem give_chunkLen (v : Word) : (s.give v).chunkLen = s.chunkLen := rfl
@[simp] theorem give_res0 (v : Word) : (s.give v).res0 = s.res0 := rfl
@[simp] theorem give_res1 (v : Word) : (s.give v).res1 = s.res1 := rfl
@[simp] theorem give_ovf (v : Word) : (s.give v).ovf = s.ovf := rfl
@[simp] theorem give_err (v : Word) : (s.give v).err = s.err := rfl
@[simp] theorem give_band (v : Word) : (s.give v).band = s.band := rfl
@[simp] theorem give_ibuf (v : Word) : (s.give v).ibuf = s.ibuf := rfl
@[simp] theorem give_modelFault (v : Word) : (s.give v).modelFault = s.modelFault := rfl
@[simp] theorem give_agenda (v : Word) : (s.give v).agenda = s.agenda := rfl
@[simp] theorem give_returned (v : Word) : (s.give v).returned = v :: s.returned := rfl
@[simp] theorem give_draws (v : Word) : (s.give v).draws = s.draws := rfl

/-! ### drawIf -/

@[simp] theorem drawIf_build (d : Bool) : (s.drawIf d).build = s.build := rfl
@[simp] theorem drawIf_fsm (d : Bool) : (s.drawIf d).fsm = s.fsm := rfl
@[simp] theorem drawIf_pend (d : Bool) : (s.drawIf d).pend = s.pend := rfl
@[simp] theorem drawIf_seed (d : Bool) : (s.drawIf d).seed = s.seed := rfl
@[simp] theorem drawIf_accA (d : Bool) : (s.drawIf d).accA = s.accA := rfl
@[simp] theorem drawIf_accB (d : Bool) : (s.drawIf d).accB = s.accB := rfl
@[simp] theorem drawIf_size (d : Bool) : (s.drawIf d).size = s.size := rfl
@[simp] theorem drawIf_arg0 (d : Bool) : (s.drawIf d).arg0 = s.arg0 := rfl
@[simp] theorem drawIf_arg1 (d : Bool) : (s.drawIf d).arg1 = s.arg1 := rfl
@[simp] theorem drawIf_chunkOff (d : Bool) : (s.drawIf d).chunkOff = s.chunkOff := rfl
@[simp] theorem drawIf_chunkLen (d : Bool) : (s.drawIf d).chunkLen = s.chunkLen := rfl
@[simp] theorem drawIf_res0 (d : Bool) : (s.drawIf d).res0 = s.res0 := rfl
@[simp] theorem drawIf_res1 (d : Bool) : (s.drawIf d).res1 = s.res1 := rfl
@[simp] theorem drawIf_ovf (d : Bool) : (s.drawIf d).ovf = s.ovf := rfl
@[simp] theorem drawIf_err (d : Bool) : (s.drawIf d).err = s.err := rfl
@[simp] theorem drawIf_band (d : Bool) : (s.drawIf d).band = s.band := rfl
@[simp] theorem drawIf_ibuf (d : Bool) : (s.drawIf d).ibuf = s.ibuf := rfl
@[simp] theorem drawIf_modelFault (d : Bool) : (s.drawIf d).modelFault = s.modelFault := rfl
@[simp] theorem drawIf_agenda (d : Bool) : (s.drawIf d).agenda = s.agenda := rfl
@[simp] theorem drawIf_returned (d : Bool) : (s.drawIf d).returned = s.returned := rfl
@[simp] theorem drawIf_draws (d : Bool) : (s.drawIf d).draws = if d then s.draws + 1 else s.draws := rfl

/-! ### noteRead -/

@[simp] theorem noteRead_build (u : Bool) : (s.noteRead u).build = s.build := rfl
@[simp] theorem noteRead_fsm (u : Bool) : (s.noteRead u).fsm = s.fsm := rfl
@[simp] theorem noteRead_pend (u : Bool) : (s.noteRead u).pend = s.pend := rfl
@[simp] theorem noteRead_seed (u : Bool) : (s.noteRead u).seed = s.seed := rfl
@[simp] theorem noteRead_accA (u : Bool) : (s.noteRead u).accA = s.accA := rfl
@[simp] theorem noteRead_accB (u : Bool) : (s.noteRead u).accB = s.accB := rfl
@[simp] theorem noteRead_size (u : Bool) : (s.noteRead u).size = s.size := rfl
@[simp] theorem noteRead_arg0 (u : Bool) : (s.noteRead u).arg0 = s.arg0 := rfl
@[simp] theorem noteRead_arg1 (u : Bool) : (s.noteRead u).arg1 = s.arg1 := rfl
@[simp] theorem noteRead_chunkOff (u : Bool) : (s.noteRead u).chunkOff = s.chunkOff := rfl
@[simp] theorem noteRead_chunkLen (u : Bool) : (s.noteRead u).chunkLen = s.chunkLen := rfl
@[simp] theorem noteRead_res0 (u : Bool) : (s.noteRead u).res0 = s.res0 := rfl
@[simp] theorem noteRead_res1 (u : Bool) : (s.noteRead u).res1 = s.res1 := rfl
@[simp] theorem noteRead_ovf (u : Bool) : (s.noteRead u).ovf = s.ovf := rfl
@[simp] theorem noteRead_err (u : Bool) : (s.noteRead u).err = s.err := rfl
@[simp] theorem noteRead_band (u : Bool) : (s.noteRead u).band = s.band := rfl
@[simp] theorem noteRead_ibuf (u : Bool) : (s.noteRead u).ibuf = s.ibuf := rfl
@[simp] theorem noteRead_modelFault (u : Bool) : (s.noteRead u).modelFault = if u then some .ibufUndefined else s.modelFault := rfl
@[simp] theorem noteRead_agenda (u : Bool) : (s.noteRead u).agenda = s.agenda := rfl
@[simp] theorem noteRead_returned (u : Bool) : (s.noteRead u).returned = s.returned := rfl
@[simp] theorem noteRead_draws (u : Bool) : (s.noteRead u).draws = if u then s.draws + 1 else s.draws := rfl

/-! ### setStream -/

@[simp] theorem setStream_build (x a b n : Word) : (s.setStream x a b n).build = s.build := rfl
@[simp] theorem setStream_fsm (x a b n : Word) : (s.setStream x a b n).fsm = s.fsm := rfl
@[simp] theorem setStream_pend (x a b n : Word) : (s.setStream x a b n).pend = s.pend := rfl
@[simp] theorem setStream_seed (x a b n : Word) : (s.setStream x a b n).seed = x := rfl
@[simp] theorem setStream_accA (x a b n : Word) : (s.setStream x a b n).accA = a := rfl
@[simp] theorem setStream_accB (x a b n : Word) : (s.setStream x a b n).accB = b := rfl
@[simp] theorem setStream_size (x a b n : Word) : (s.setStream x a b n).size = n := rfl
@[simp] theorem setStream_arg0 (x a b n : Word) : (s.setStream x a b n).arg0 = s.arg0 := rfl
@[simp] theorem setStream_arg1 (x a b n : Word) : (s.setStream x a b n).arg1 = s.arg1 := rfl
@[simp] theorem setStream_chunkOff (x a b n : Word) : (s.setStream x a b n).chunkOff = s.chunkOff := rfl
@[simp] theorem setStream_chunkLen (x a b n : Word) : (s.setStream x a b n).chunkLen = s.chunkLen := rfl
@[simp] theorem setStream_res0 (x a b n : Word) : (s.setStream x a b n).res0 = s.res0 := rfl
@[simp] theorem setStream_res1 (x a b n : Word) : (s.setStream x a b n).res1 = s.res1 := rfl
@[simp] theorem setStream_ovf (x a b n : Word) : (s.setStream x a b n).ovf = s.ovf := rfl
@[simp] theorem setStream_err (x a b n : Word) : (s.setStream x a b n).err = s.err := rfl
@[simp] theorem setStream_band (x a b n : Word) : (s.setStream x a b n).band = s.band := rfl
@[simp] theorem setStream_ibuf (x a b n : Word) : (s.setStream x a b n).ibuf = s.ibuf := rfl
@[simp] theorem setStream_modelFault (x a b n : Word) : (s.setStream x a b n).modelFault = s.modelFault := rfl
@[simp] theorem setStream_agenda (x a b n : Word) : (s.setStream x a b n).agenda = s.agenda := rfl
@[simp] theorem setStream_returned (x a b n : Word) : (s.setStream x a b n).returned = s.returned := rfl
@[simp] theorem setStream_draws (x a b n : Word) : (s.setStream x a b n).draws = s.draws := rfl

/-! ### setResult -/

@[simp] theorem setResult_build (x y : Word) : (s.setResult x y).build = s.build := rfl
@[simp] theorem setResult_fsm (x y : Word) : (s.setResult x y).fsm = s.fsm := rfl
@[simp] theorem setResult_pend (x y : Word) : (s.setResult x y).pend = s.pend := rfl
@[simp] theorem setResult_seed (x y : Word) : (s.setResult x y).seed = s.seed := rfl
@[simp] theorem setResult_accA (x y : Word) : (s.setResult x y).accA = s.accA := rfl
@[simp] theorem setResult_accB (x y : Word) : (s.setResult x y).accB = s.accB := rfl
@[simp] theorem setResult_size (x y : Word) : (s.setResult x y).size = s.size := rfl
@[simp] theorem setResult_arg0 (x y : Word) : (s.setResult x y).arg0 = s.arg0 := rfl
@[simp] theorem setResult_arg1 (x y : Word) : (s.setResult x y).arg1 = s.arg1 := rfl
@[simp] theorem setResult_chunkOff (x y : Word) : (s.setResult x y).chunkOff = s.chunkOff := rfl
@[simp] theorem setResult_chunkLen (x y : Word) : (s.setResult x y).chunkLen = s.chunkLen := rfl
@[simp] theorem setResult_res0 (x y : Word) : (s.setResult x y).res0 = x := rfl
@[simp] theorem setResult_res1 (x y : Word) : (s.setResult x y).res1 = y := rfl
@[simp] theorem setResult_ovf (x y : Word) : (s.setResult x y).ovf = s.ovf := rfl
@[simp] theorem setResult_err (x y : Word) : (s.setResult x y).err = s.err := rfl
@[simp] theorem setResult_band (x y : Word) : (s.setResult x y).band = s.band := rfl
@[simp] theorem setResult_ibuf (x y : Word) : (s.setResult x y).ibuf = s.ibuf := rfl
@[simp] theorem setResult_modelFault (x y : Word) : (s.setResult x y).modelFault = s.modelFault := rfl
@[simp] theorem setResult_agenda (x y : Word) : (s.setResult x y).agenda = s.agenda := rfl
@[simp] theorem setResult_returned (x y : Word) : (s.setResult x y).returned = s.returned := rfl
@[simp] theorem setResult_draws (x y : Word) : (s.setResult x y).draws = s.draws := rfl

/-! ### setOvf -/

@[simp] theorem setOvf_build (o : Bool) : (s.setOvf o).build = s.build := rfl
@[simp] theorem setOvf_fsm (o : Bool) : (s.setOvf o).fsm = s.fsm := rfl
@[simp] theorem setOvf_pend (o : Bool) : (s.setOvf o).pend = s.pend := rfl
@[simp] theorem setOvf_seed (o : Bool) : (s.setOvf o).seed = s.seed := rfl
@[simp] theorem setOvf_accA (o : Bool) : (s.setOvf o).accA = s.accA := rfl
@[simp] theorem setOvf_accB (o : Bool) : (s.setOvf o).accB = s.accB := rfl
@[simp] theorem setOvf_size (o : Bool) : (s.setOvf o).size = s.size := rfl
@[simp] theorem setOvf_arg0 (o : Bool) : (s.setOvf o).arg0 = s.arg0 := rfl
@[simp] theorem setOvf_arg1 (o : Bool) : (s.setOvf o).arg1 = s.arg1 := rfl
@[simp] theorem setOvf_chunkOff (o : Bool) : (s.setOvf o).chunkOff = s.chunkOff := rfl
@[simp] theorem setOvf_chunkLen (o : Bool) : (s.setOvf o).chunkLen = s.chunkLen := rfl
@[simp] theorem setOvf_res0 (o : Bool) : (s.setOvf o).res0 = s.res0 := rfl
@[simp] theorem setOvf_res1 (o : Bool) : (s.setOvf o).res1 = s.res1 := rfl
@[simp] theorem setOvf_ovf (o : Bool) : (s.setOvf o).ovf = o := rfl
@[simp] theorem setOvf_err (o : Bool) : (s.setOvf o).err = s.err := rfl
@[simp] theorem setOvf_band (o : Bool) : (s.setOvf o).band = s.band := rfl
@[simp] theorem setOvf_ibuf (o : Bool) : (s.setOvf o).ibuf = s.ibuf := rfl
@[simp] theorem setOvf_modelFault (o : Bool) : (s.setOvf o).modelFault = s.modelFault := rfl
@[simp] theorem setOvf_agenda (o : Bool) : (s.setOvf o).agenda = s.agenda := rfl
@[simp] theorem setOvf_returned (o : Bool) : (s.setOvf o).returned = s.returned := rfl
@[simp] theorem setOvf_draws (o : Bool) : (s.setOvf o).draws = s.draws := rfl

/-! ### setBand -/

@[simp] theorem setBand_build (n : Nat) : (s.setBand n).build = s.build := rfl
@[simp] theorem setBand_fsm (n : Nat) : (s.setBand n).fsm = s.fsm := rfl
@[simp] theorem setBand_pend (n : Nat) : (s.setBand n).pend = s.pend := rfl
@[simp] theorem setBand_seed (n : Nat) : (s.setBand n).seed = s.seed := rfl
@[simp] theorem setBand_accA (n : Nat) : (s.setBand n).accA = s.accA := rfl
@[simp] theorem setBand_accB (n : Nat) : (s.setBand n).accB = s.accB := rfl
@[simp] theorem setBand_size (n : Nat) : (s.setBand n).size = s.size := rfl
@[simp] theorem setBand_arg0 (n : Nat) : (s.setBand n).arg0 = s.arg0 := rfl
@[simp] theorem setBand_arg1 (n : Nat) : (s.setBand n).arg1 = s.arg1 := rfl
@[simp] theorem setBand_chunkOff (n : Nat) : (s.setBand n).chunkOff = s.chunkOff := rfl
@[simp] theorem setBand_chunkLen (n : Nat) : (s.setBand n).chunkLen = s.chunkLen := rfl
@[simp] theorem setBand_res0 (n : Nat) : (s.setBand n).res0 = s.res0 := rfl
@[simp] theorem setBand_res1 (n : Nat) : (s.setBand n).res1 = s.res1 := rfl
@[simp] theorem setBand_ovf (n : Nat) : (s.setBand n).ovf = s.ovf := rfl
@[simp] theorem setBand_err (n : Nat) : (s.setBand n).err = s.err := rfl
@[simp] theorem setBand_band (n : Nat) : (s.setBand n).band = BitVec.ofNat 4 (bandClass n) := rfl
@[simp] theorem setBand_ibuf (n : Nat) : (s.setBand n).ibuf = s.ibuf := rfl
@[simp] theorem setBand_modelFault (n : Nat) : (s.setBand n).modelFault = s.modelFault := rfl
@[simp] theorem setBand_agenda (n : Nat) : (s.setBand n).agenda = s.agenda := rfl
@[simp] theorem setBand_returned (n : Nat) : (s.setBand n).returned = s.returned := rfl
@[simp] theorem setBand_draws (n : Nat) : (s.setBand n).draws = s.draws := rfl

/-! ### storeBytes -/

@[simp] theorem storeBytes_build (k : Nat) (bs : List Byte) : (s.storeBytes k bs).build = s.build := rfl
@[simp] theorem storeBytes_fsm (k : Nat) (bs : List Byte) : (s.storeBytes k bs).fsm = s.fsm := rfl
@[simp] theorem storeBytes_pend (k : Nat) (bs : List Byte) : (s.storeBytes k bs).pend = s.pend := rfl
@[simp] theorem storeBytes_seed (k : Nat) (bs : List Byte) : (s.storeBytes k bs).seed = s.seed := rfl
@[simp] theorem storeBytes_accA (k : Nat) (bs : List Byte) : (s.storeBytes k bs).accA = s.accA := rfl
@[simp] theorem storeBytes_accB (k : Nat) (bs : List Byte) : (s.storeBytes k bs).accB = s.accB := rfl
@[simp] theorem storeBytes_size (k : Nat) (bs : List Byte) : (s.storeBytes k bs).size = s.size := rfl
@[simp] theorem storeBytes_arg0 (k : Nat) (bs : List Byte) : (s.storeBytes k bs).arg0 = s.arg0 := rfl
@[simp] theorem storeBytes_arg1 (k : Nat) (bs : List Byte) : (s.storeBytes k bs).arg1 = s.arg1 := rfl
@[simp] theorem storeBytes_chunkOff (k : Nat) (bs : List Byte) : (s.storeBytes k bs).chunkOff = s.chunkOff := rfl
@[simp] theorem storeBytes_chunkLen (k : Nat) (bs : List Byte) : (s.storeBytes k bs).chunkLen = s.chunkLen := rfl
@[simp] theorem storeBytes_res0 (k : Nat) (bs : List Byte) : (s.storeBytes k bs).res0 = s.res0 := rfl
@[simp] theorem storeBytes_res1 (k : Nat) (bs : List Byte) : (s.storeBytes k bs).res1 = s.res1 := rfl
@[simp] theorem storeBytes_ovf (k : Nat) (bs : List Byte) : (s.storeBytes k bs).ovf = s.ovf := rfl
@[simp] theorem storeBytes_err (k : Nat) (bs : List Byte) : (s.storeBytes k bs).err = s.err := rfl
@[simp] theorem storeBytes_band (k : Nat) (bs : List Byte) : (s.storeBytes k bs).band = s.band := rfl
@[simp] theorem storeBytes_ibuf (k : Nat) (bs : List Byte) : (s.storeBytes k bs).ibuf = memSetBytes s.ibuf k bs := rfl
@[simp] theorem storeBytes_modelFault (k : Nat) (bs : List Byte) : (s.storeBytes k bs).modelFault = s.modelFault := rfl
@[simp] theorem storeBytes_agenda (k : Nat) (bs : List Byte) : (s.storeBytes k bs).agenda = s.agenda := rfl
@[simp] theorem storeBytes_returned (k : Nat) (bs : List Byte) : (s.storeBytes k bs).returned = s.returned := rfl
@[simp] theorem storeBytes_draws (k : Nat) (bs : List Byte) : (s.storeBytes k bs).draws = s.draws := rfl

/-! ### resetAll -/

@[simp] theorem resetAll_build : (s.resetAll).build = s.build := rfl
@[simp] theorem resetAll_fsm : (s.resetAll).fsm = .idle := rfl
@[simp] theorem resetAll_pend : (s.resetAll).pend = none := rfl
@[simp] theorem resetAll_seed : (s.resetAll).seed = s.build.defaultSeed := rfl
@[simp] theorem resetAll_accA : (s.resetAll).accA = 0 := rfl
@[simp] theorem resetAll_accB : (s.resetAll).accB = 0 := rfl
@[simp] theorem resetAll_size : (s.resetAll).size = 0 := rfl
@[simp] theorem resetAll_arg0 : (s.resetAll).arg0 = 0 := rfl
@[simp] theorem resetAll_arg1 : (s.resetAll).arg1 = 0 := rfl
@[simp] theorem resetAll_chunkOff : (s.resetAll).chunkOff = 0 := rfl
@[simp] theorem resetAll_chunkLen : (s.resetAll).chunkLen = 0 := rfl
@[simp] theorem resetAll_res0 : (s.resetAll).res0 = 0 := rfl
@[simp] theorem resetAll_res1 : (s.resetAll).res1 = 0 := rfl
@[simp] theorem resetAll_ovf : (s.resetAll).ovf = false := rfl
@[simp] theorem resetAll_err : (s.resetAll).err = 0 := rfl
@[simp] theorem resetAll_band : (s.resetAll).band = 0 := rfl
@[simp] theorem resetAll_ibuf : (s.resetAll).ibuf = [] := rfl
@[simp] theorem resetAll_modelFault : (s.resetAll).modelFault = none := rfl
@[simp] theorem resetAll_agenda : (s.resetAll).agenda = s.agenda := rfl
@[simp] theorem resetAll_returned : (s.resetAll).returned = s.returned := rfl
@[simp] theorem resetAll_draws : (s.resetAll).draws = s.draws := rfl

/-! ### statusWrite: a STATUS write touches OVF and ERR only (R25) -/

@[simp] theorem statusWrite_build (w : Word) : (statusWrite w s).build = s.build := by
  unfold statusWrite; cases w.getLsbD 3 <;> rfl
@[simp] theorem statusWrite_fsm (w : Word) : (statusWrite w s).fsm = s.fsm := by
  unfold statusWrite; cases w.getLsbD 3 <;> rfl
@[simp] theorem statusWrite_pend (w : Word) : (statusWrite w s).pend = s.pend := by
  unfold statusWrite; cases w.getLsbD 3 <;> rfl
@[simp] theorem statusWrite_seed (w : Word) : (statusWrite w s).seed = s.seed := by
  unfold statusWrite; cases w.getLsbD 3 <;> rfl
@[simp] theorem statusWrite_accA (w : Word) : (statusWrite w s).accA = s.accA := by
  unfold statusWrite; cases w.getLsbD 3 <;> rfl
@[simp] theorem statusWrite_accB (w : Word) : (statusWrite w s).accB = s.accB := by
  unfold statusWrite; cases w.getLsbD 3 <;> rfl
@[simp] theorem statusWrite_size (w : Word) : (statusWrite w s).size = s.size := by
  unfold statusWrite; cases w.getLsbD 3 <;> rfl
@[simp] theorem statusWrite_arg0 (w : Word) : (statusWrite w s).arg0 = s.arg0 := by
  unfold statusWrite; cases w.getLsbD 3 <;> rfl
@[simp] theorem statusWrite_arg1 (w : Word) : (statusWrite w s).arg1 = s.arg1 := by
  unfold statusWrite; cases w.getLsbD 3 <;> rfl
@[simp] theorem statusWrite_chunkOff (w : Word) : (statusWrite w s).chunkOff = s.chunkOff := by
  unfold statusWrite; cases w.getLsbD 3 <;> rfl
@[simp] theorem statusWrite_chunkLen (w : Word) : (statusWrite w s).chunkLen = s.chunkLen := by
  unfold statusWrite; cases w.getLsbD 3 <;> rfl
@[simp] theorem statusWrite_res0 (w : Word) : (statusWrite w s).res0 = s.res0 := by
  unfold statusWrite; cases w.getLsbD 3 <;> rfl
@[simp] theorem statusWrite_res1 (w : Word) : (statusWrite w s).res1 = s.res1 := by
  unfold statusWrite; cases w.getLsbD 3 <;> rfl
@[simp] theorem statusWrite_ovf (w : Word) : (statusWrite w s).ovf = (s.ovf && !w.getLsbD 1) := by
  unfold statusWrite; cases w.getLsbD 3 <;> rfl
@[simp] theorem statusWrite_err (w : Word) : (statusWrite w s).err = if w.getLsbD 3 then 0 else s.err := by
  unfold statusWrite; cases w.getLsbD 3 <;> rfl
@[simp] theorem statusWrite_band (w : Word) : (statusWrite w s).band = s.band := by
  unfold statusWrite; cases w.getLsbD 3 <;> rfl
@[simp] theorem statusWrite_ibuf (w : Word) : (statusWrite w s).ibuf = s.ibuf := by
  unfold statusWrite; cases w.getLsbD 3 <;> rfl
@[simp] theorem statusWrite_modelFault (w : Word) : (statusWrite w s).modelFault = s.modelFault := by
  unfold statusWrite; cases w.getLsbD 3 <;> rfl
@[simp] theorem statusWrite_agenda (w : Word) : (statusWrite w s).agenda = s.agenda := by
  unfold statusWrite; cases w.getLsbD 3 <;> rfl
@[simp] theorem statusWrite_returned (w : Word) : (statusWrite w s).returned = s.returned := by
  unfold statusWrite; cases w.getLsbD 3 <;> rfl
@[simp] theorem statusWrite_draws (w : Word) : (statusWrite w s).draws = s.draws := by
  unfold statusWrite; cases w.getLsbD 3 <;> rfl

/-! ### writeReg: a register write touches its own register only (R41) -/

@[simp] theorem writeReg_build (r : Reg) (v : Word) : (s.writeReg r v).build = s.build := by
  cases r <;> rfl
@[simp] theorem writeReg_fsm (r : Reg) (v : Word) : (s.writeReg r v).fsm = s.fsm := by
  cases r <;> rfl
@[simp] theorem writeReg_pend (r : Reg) (v : Word) : (s.writeReg r v).pend = s.pend := by
  cases r <;> rfl
@[simp] theorem writeReg_seed (r : Reg) (v : Word) :
    (s.writeReg r v).seed = if r = .seed then v else s.seed := by
  cases r <;> rfl
@[simp] theorem writeReg_accA (r : Reg) (v : Word) :
    (s.writeReg r v).accA = if r = .accA then v else s.accA := by
  cases r <;> rfl
@[simp] theorem writeReg_accB (r : Reg) (v : Word) :
    (s.writeReg r v).accB = if r = .accB then v else s.accB := by
  cases r <;> rfl
@[simp] theorem writeReg_size (r : Reg) (v : Word) :
    (s.writeReg r v).size = if r = .size then v else s.size := by
  cases r <;> rfl
@[simp] theorem writeReg_arg0 (r : Reg) (v : Word) :
    (s.writeReg r v).arg0 = if r = .arg0 then v else s.arg0 := by
  cases r <;> rfl
@[simp] theorem writeReg_arg1 (r : Reg) (v : Word) :
    (s.writeReg r v).arg1 = if r = .arg1 then v else s.arg1 := by
  cases r <;> rfl
@[simp] theorem writeReg_chunkOff (r : Reg) (v : Word) :
    (s.writeReg r v).chunkOff = if r = .chunkOff then v else s.chunkOff := by
  cases r <;> rfl
@[simp] theorem writeReg_chunkLen (r : Reg) (v : Word) :
    (s.writeReg r v).chunkLen = if r = .chunkLen then v else s.chunkLen := by
  cases r <;> rfl
@[simp] theorem writeReg_res0 (r : Reg) (v : Word) : (s.writeReg r v).res0 = s.res0 := by
  cases r <;> rfl
@[simp] theorem writeReg_res1 (r : Reg) (v : Word) : (s.writeReg r v).res1 = s.res1 := by
  cases r <;> rfl
@[simp] theorem writeReg_ovf (r : Reg) (v : Word) : (s.writeReg r v).ovf = s.ovf := by
  cases r <;> rfl
@[simp] theorem writeReg_err (r : Reg) (v : Word) : (s.writeReg r v).err = s.err := by
  cases r <;> rfl
@[simp] theorem writeReg_band (r : Reg) (v : Word) : (s.writeReg r v).band = s.band := by
  cases r <;> rfl
@[simp] theorem writeReg_ibuf (r : Reg) (v : Word) : (s.writeReg r v).ibuf = s.ibuf := by
  cases r <;> rfl
@[simp] theorem writeReg_modelFault (r : Reg) (v : Word) : (s.writeReg r v).modelFault = s.modelFault := by
  cases r <;> rfl
@[simp] theorem writeReg_agenda (r : Reg) (v : Word) : (s.writeReg r v).agenda = s.agenda := by
  cases r <;> rfl
@[simp] theorem writeReg_returned (r : Reg) (v : Word) : (s.writeReg r v).returned = s.returned := by
  cases r <;> rfl
@[simp] theorem writeReg_draws (r : Reg) (v : Word) : (s.writeReg r v).draws = s.draws := by
  cases r <;> rfl

/-! ### onNext and nextState -/

@[simp] theorem onNext_next (f : State → State) (t : State) :
    onNext f (.next t) = .next (f t) := rfl

@[simp] theorem onNext_fault (f : State → State) (r : Fault) :
    onNext f (.fault r) = .fault r := rfl

@[simp] theorem onNext_refused (f : State → State) (r : Refusal) :
    onNext f (.refused r) = .refused r := rfl

@[simp] theorem nextState_next (t : State) : nextState (.next t) = some t := rfl

/-- An outcome under `onNext` is a next state only where the outcome itself is one. -/
theorem onNext_eq_next {f : State → State} {o : Host.Outcome State Fault Refusal} {t : State}
    (h : onNext f o = .next t) : ∃ u, o = .next u ∧ t = f u := by
  cases o with
  | next u => exact ⟨u, rfl, by simpa using h.symm⟩
  | fault r => simp at h
  | refused r => simp at h

end Sys2Proof.Machine
end

