-- ==== Sys2Proof/Laws/Commands.lean ====
section
/-! SUPPORT. What the shared operations of the commands can do, one inversion lemma each: the INTERNAL case (R246) or the command's effect. -/

namespace Sys2Proof.Machine

/-- Everything `foldChunk` (WRITE, WRITEI) can do. -/
theorem foldChunk_cases (c : Chunk) (s : State) :
    (compress s.build c s.accA s.accB (evolveSeed s.build s.seed (sizeAfter c.len s)) = none ∧
      foldChunk c s = s.raise .internal) ∨
    ∃ a b x, compress s.build c s.accA s.accB (evolveSeed s.build s.seed (sizeAfter c.len s)) = some (a, b, x) ∧
      foldChunk c s = (((s.setStream x a b (sizeAfter c.len s)).setOvf (ovfAfter c.len s)).setBand c.len).noteRead
        c.hasUndefined := by
  unfold foldChunk
  split
  · exact .inl ⟨‹_›, rfl⟩
  · exact .inr ⟨_, _, _, ‹_›, rfl⟩

/-- Everything `hashChunk` (HASH) can do. -/
theorem hashChunk_cases (seed : Word) (c : Chunk) (s : State) :
    (compress s.build c 0 0 (evolveSeed s.build seed (BitVec.ofNat 64 c.len)) = none ∧
      hashChunk seed c s = s.raise .internal) ∨
    ∃ a b x, compress s.build c 0 0 (evolveSeed s.build seed (BitVec.ofNat 64 c.len)) = some (a, b, x) ∧
      hashChunk seed c s = ((s.setResult (finalize s.build a b (BitVec.ofNat 64 c.len)) 0).setBand c.len).noteRead
        c.hasUndefined := by
  unfold hashChunk
  split
  · exact .inl ⟨‹_›, rfl⟩
  · exact .inr ⟨_, _, _, ‹_›, rfl⟩

/-- Everything `coreChunk` (CORE) can do. -/
theorem coreChunk_cases (c : Chunk) (s : State) :
    (compress s.build c s.accA s.accB s.seed = none ∧ coreChunk c s = s.raise .internal) ∨
    ∃ a b x, compress s.build c s.accA s.accB s.seed = some (a, b, x) ∧
      coreChunk c s = ((s.setStream x a b s.size).setBand c.len).noteRead c.hasUndefined := by
  unfold coreChunk
  split
  · exact .inl ⟨‹_›, rfl⟩
  · exact .inr ⟨_, _, _, ‹_›, rfl⟩

/-- Everything `readResult` (READ32, READ64) can do. -/
theorem readResult_cases (v : Option Word) (s : State) :
    (v = none ∧ readResult v s = s.raise .internal) ∨
    ∃ x, v = some x ∧ readResult v s = (s.setResult x 0).noteRead (chunkOf s).hasUndefined := by
  cases v with
  | none => exact .inl ⟨rfl, rfl⟩
  | some x => exact .inr ⟨x, rfl, rfl⟩

/-- When the operand checks of acceptance pass (R243). -/
theorem operandCheck_eq_none {i : Instr} {s : State} :
    operandCheck i s = none ↔
      (usesChunk i = true → s.chunkOff.toNat + s.chunkLen.toNat ≤ s.build.bufBytes) ∧
      (readWidth i ≠ 0 → s.arg0.toNat + readWidth i ≤ s.chunkLen.toNat) := by
  unfold operandCheck chunkOutOfRange readOutOfBounds
  split
  · rename_i h
    simp only [Bool.and_eq_true, decide_eq_true_eq] at h
    simp only [reduceCtorEq, false_iff, not_and]
    intro h'
    have := h' h.1
    omega
  · rename_i h
    simp only [Bool.and_eq_true, decide_eq_true_eq, not_and, Nat.not_lt] at h
    split
    · rename_i h2
      simp only [bne_iff_ne, Bool.and_eq_true, decide_eq_true_eq] at h2
      simp only [reduceCtorEq, false_iff, not_and]
      intro _ h'
      have := h' h2.1
      omega
    · rename_i h2
      simp only [bne_iff_ne, Bool.and_eq_true, decide_eq_true_eq, not_and, Nat.not_lt] at h2
      exact ⟨fun _ => ⟨h, h2⟩, fun _ => rfl⟩

/-- Whether the checks pass does not depend on ERR, the FSM, the latch, the results or the model's own fields. -/
theorem operandCheck_congr {i : Instr} {s t : State} (hb : t.build = s.build)
    (ho : t.chunkOff = s.chunkOff) (hl : t.chunkLen = s.chunkLen) (ha : t.arg0 = s.arg0) :
    operandCheck i t = operandCheck i s := by
  unfold operandCheck chunkOutOfRange readOutOfBounds
  rw [hb, ho, hl, ha]

end Sys2Proof.Machine
end

