-- ==== Sys2Proof/Laws/Memory.lean ====
section
/-! SUPPORT. The laws of IBUF: reads after writes, and that every memory operation keeps the canonical form. -/

namespace Sys2Proof.Machine

/-- A list that rises from `lo` holds no index below `lo`. -/
theorem memGet_below {lo k : Nat} {m : List Host.Cell} (h : memRises lo m = true) (hk : k < lo) :
    memGet m k = none := by
  induction m generalizing lo with
  | nil => rfl
  | cons c rest ih =>
    obtain ⟨j, b⟩ := c
    simp only [memRises, Bool.and_eq_true, decide_eq_true_eq] at h
    have : j ≠ k := by omega
    simp only [memGet, this, if_false]
    exact ih h.2 (by omega)

/-- A read of the byte just written gives it. -/
@[simp] theorem memGet_memSet_same (m : List Host.Cell) (k : Nat) (v : Byte) :
    memGet (memSet m k v) k = some v := by
  induction m with
  | nil => simp [memSet, memGet]
  | cons c rest ih =>
    obtain ⟨j, b⟩ := c
    simp only [memSet]
    split
    · simp [memGet]
    · split
      · simp [memGet]
      · have : j ≠ k := by omega
        simpa [memGet, this] using ih

/-- A write leaves every other byte alone. -/
theorem memGet_memSet_other {m : List Host.Cell} {k j : Nat} (v : Byte) (h : j ≠ k) :
    memGet (memSet m k v) j = memGet m j := by
  induction m with
  | nil => simp [memSet, memGet, h.symm]
  | cons c rest ih =>
    obtain ⟨i, b⟩ := c
    simp only [memSet]
    split
    · simp [memGet, h.symm]
    · split
      · rename_i hki
        subst hki
        simp [memGet, h.symm]
      · by_cases hij : i = j <;> simp [memGet, hij, ih]

/-- What a read gives after a write of consecutive bytes. -/
theorem memGet_memSetBytes (m : List Host.Cell) (k : Nat) (bs : List Byte) (j : Nat) :
    memGet (memSetBytes m k bs) j =
      if k ≤ j ∧ j < k + bs.length then bs[j - k]? else memGet m j := by
  induction bs generalizing m k with
  | nil => simp [memSetBytes]
  | cons b rest ih =>
    simp only [memSetBytes, ih, List.length_cons]
    by_cases hj : j = k
    · subst hj
      simp
    · rw [memGet_memSet_other b hj]
      by_cases hin : k ≤ j ∧ j < k + (rest.length + 1)
      · have h1 : k + 1 ≤ j ∧ j < k + 1 + rest.length := by omega
        have h2 : j - k = (j - (k + 1)) + 1 := by omega
        rw [if_pos h1, if_pos hin, h2, List.getElem?_cons_succ]
      · have h1 : ¬ (k + 1 ≤ j ∧ j < k + 1 + rest.length) := by omega
        rw [if_neg h1, if_neg hin]

/-- Setting a byte keeps the indexes rising. -/
theorem memRises_memSet {lo : Nat} {m : List Host.Cell} (k : Nat) (v : Byte)
    (h : memRises lo m = true) (hk : lo ≤ k) : memRises lo (memSet m k v) = true := by
  induction m generalizing lo with
  | nil => simp [memSet, memRises, hk]
  | cons c rest ih =>
    obtain ⟨j, b⟩ := c
    simp only [memRises, Bool.and_eq_true, decide_eq_true_eq] at h
    simp only [memSet]
    split
    · simp only [memRises, Bool.and_eq_true, decide_eq_true_eq]
      exact ⟨hk, by omega, h.2⟩
    · split
      · rename_i hkj
        subst hkj
        simp only [memRises, Bool.and_eq_true, decide_eq_true_eq]
        exact ⟨hk, h.2⟩
      · simp only [memRises, Bool.and_eq_true, decide_eq_true_eq]
        exact ⟨h.1, ih h.2 (by omega)⟩

/-- The indexes listed after a write are those listed before and the one written. -/
theorem mem_memSet_index {m : List Host.Cell} {k : Nat} {v : Byte} {c : Host.Cell}
    (h : c ∈ memSet m k v) : c.1 = k ∨ c ∈ m := by
  induction m with
  | nil =>
    simp only [memSet, List.mem_singleton] at h
    exact .inl (by rw [h])
  | cons d rest ih =>
    obtain ⟨j, b⟩ := d
    simp only [memSet] at h
    split at h
    · rcases List.mem_cons.1 h with rfl | h
      · exact .inl rfl
      · exact .inr h
    · split at h
      · rcases List.mem_cons.1 h with rfl | h
        · exact .inl rfl
        · exact .inr (List.mem_cons_of_mem _ h)
      · rcases List.mem_cons.1 h with rfl | h
        · exact .inr List.mem_cons_self
        · exact (ih h).imp_right (List.mem_cons_of_mem _)

/-- A write inside IBUF keeps the canonical form. -/
theorem memSet_wf {n : Nat} {m : List Host.Cell} {k : Nat} (v : Byte) (h : memWf n m = true)
    (hk : k < n) : memWf n (memSet m k v) = true := by
  simp only [memWf, Bool.and_eq_true, List.all_eq_true, decide_eq_true_eq] at h ⊢
  refine ⟨memRises_memSet k v h.1 (Nat.zero_le _), fun c hc => ?_⟩
  rcases mem_memSet_index hc with hck | hcm
  · omega
  · exact h.2 c hcm

/-- A write of consecutive bytes inside IBUF keeps the canonical form. -/
theorem memSetBytes_wf {n : Nat} {m : List Host.Cell} {k : Nat} {bs : List Byte}
    (h : memWf n m = true) (hk : k + bs.length ≤ n) : memWf n (memSetBytes m k bs) = true := by
  induction bs generalizing m k with
  | nil => exact h
  | cons b rest ih =>
    simp only [List.length_cons] at hk
    exact ih (memSet_wf b h (by omega)) (by omega)

/-- The empty memory, all of it undefined, is in canonical form. -/
theorem memWf_nil (n : Nat) : memWf n [] = true := rfl

/-- Two rising memories that read alike everywhere are the same list. -/
theorem mem_ext_of_rises {lo : Nat} {m m' : List Host.Cell} (h : memRises lo m = true)
    (h' : memRises lo m' = true) (heq : ∀ k, memGet m k = memGet m' k) : m = m' := by
  induction m generalizing lo m' with
  | nil =>
    cases m' with
    | nil => rfl
    | cons c rest =>
      have := heq c.1
      simp [memGet] at this
  | cons c rest ih =>
    obtain ⟨j, b⟩ := c
    cases m' with
    | nil =>
      have := heq j
      simp [memGet] at this
    | cons c' rest' =>
      obtain ⟨j', b'⟩ := c'
      simp only [memRises, Bool.and_eq_true, decide_eq_true_eq] at h h'
      have hj : j = j' := by
        rcases Nat.lt_trichotomy j j' with hlt | heq' | hgt
        · have := heq j
          have hne : j' ≠ j := by omega
          simp [memGet, hne, memGet_below h'.2 (by omega : j < j' + 1)] at this
        · exact heq'
        · have := heq j'
          have hne : j ≠ j' := by omega
          simp [memGet, hne, memGet_below h.2 (by omega : j' < j + 1)] at this
      subst hj
      have hb : b = b' := by simpa [memGet] using heq j
      subst hb
      have : rest = rest' := by
        refine ih h.2 h'.2 fun k => ?_
        by_cases hk : j = k
        · subst hk
          rw [memGet_below h.2 (by omega), memGet_below h'.2 (by omega)]
        · simpa [memGet, hk] using heq k
      rw [this]

/-- Equal contents are equal data: canonical memories that read alike are the same list. -/
theorem mem_ext {n n' : Nat} {m m' : List Host.Cell} (h : memWf n m = true) (h' : memWf n' m' = true)
    (heq : ∀ k, memGet m k = memGet m' k) : m = m' := by
  simp only [memWf, Bool.and_eq_true] at h h'
  exact mem_ext_of_rises h.1 h'.1 heq

end Sys2Proof.Machine
end

