-- ==== Sys2Proof/Laws/PerInstr.lean ====
section
/-! SUPPORT. One lemma per command: its fields are a legal command word's, and the encoder lays them out as R90 says. -/

namespace Sys2Proof.Laws.EncodedFields

/-- The fields of a command meet R91 to R94, and cutting its word by R90 gives them back. -/
def Statement (i : Instr) : Prop :=
  (fieldsFor i).wf = true ∧ fieldsOf (encode i) = fieldsFor i

theorem nop : Statement .nop := by unfold Statement; decide

theorem init : Statement .init := by unfold Statement; decide

theorem initDs : Statement .initDs := by unfold Statement; decide

theorem write : Statement .write := by unfold Statement; decide

theorem writei8 : Statement .writei8 := by unfold Statement; decide

theorem writei16 : Statement .writei16 := by unfold Statement; decide

theorem writei32 : Statement .writei32 := by unfold Statement; decide

theorem writei64 : Statement .writei64 := by unfold Statement; decide

theorem writei128 : Statement .writei128 := by unfold Statement; decide

theorem finish : Statement .finish := by unfold Statement; decide

theorem hash : Statement .hash := by unfold Statement; decide

theorem hashDs : Statement .hashDs := by unfold Statement; decide

theorem mum : Statement .mum := by unfold Statement; decide

theorem mix : Statement .mix := by unfold Statement; decide

theorem evolve : Statement .evolve := by unfold Statement; decide

theorem read32 : Statement .read32 := by unfold Statement; decide

theorem read64 : Statement .read64 := by unfold Statement; decide

theorem core : Statement .core := by unfold Statement; decide

end Sys2Proof.Laws.EncodedFields
end

