-- ==== Sys2Proof/Laws/Port.lean ====
section
/-! SUPPORT. What acceptance, a host write, a host read and a step can do, one inversion lemma each, so that an invariant is a short case analysis and not an unfolding. -/

namespace Sys2Proof.Machine

/-- Everything acceptance can do (R243). -/
theorem accept_cases (c : Word) (s : State) :
    (∃ e, accept c s = s.raise e ∧ e ≠ .internal ∧ e ≠ .badAccess) ∨
    (s.fsm = .idle ∧ s.err ≠ 0 ∧ accept c s = s) ∨
    (s.fsm = .idle ∧ s.err = 0 ∧ ∃ i, decode c = .ok i ∧ operandCheck i s = none ∧
      accept c s = s.latch c) := by
  unfold accept
  split
  · exact .inl ⟨_, rfl, by decide, by decide⟩
  · rename_i hf
    have hidle : s.fsm = .idle := by
      cases h : s.fsm
      · rfl
      · exact absurd h hf
    split
    · exact .inr (.inl ⟨hidle, ‹_›, rfl⟩)
    · rename_i he
      split
      · exact .inl ⟨_, rfl, by decide, by decide⟩
      · rename_i i hd
        cases hc : operandCheck i s with
        | some e =>
          refine .inl ⟨e, rfl, ?_, ?_⟩ <;>
            (unfold operandCheck at hc; split at hc <;> [skip; split at hc] <;> simp_all <;> subst hc <;> decide)
        | none => exact .inr (.inr ⟨hidle, by simpa using he, i, hd, hc, rfl⟩)

/-- Everything a legal write to the register window can do (R282, R283). -/
theorem writeRegister_cases (off : Nat) (v : Word) (s : State) :
    writeRegister off v s = s ∨
    writeRegister off v s = s.raise .busyAccess ∨
    (regAt off = some .cmd ∧ writeRegister off v s = accept v s) ∨
    (regAt off = some .status ∧ writeRegister off v s = statusWrite v s) ∨
    (s.fsm = .idle ∧ ∃ r, regAt off = some r ∧ hostWritable r = true ∧
      writeRegister off v s = s.writeReg r v) := by
  unfold writeRegister
  split
  · exact .inl rfl
  · exact .inr (.inr (.inl ⟨‹_›, rfl⟩))
  · exact .inr (.inr (.inr (.inl ⟨‹_›, rfl⟩)))
  · rename_i r _ _ hr
    split
    · rename_i hw
      split
      · exact .inr (.inl rfl)
      · rename_i hf
        have hidle : s.fsm = .idle := by
          cases h : s.fsm
          · rfl
          · exact absurd h hf
        exact .inr (.inr (.inr (.inr ⟨hidle, r, hr, hw, rfl⟩)))
    · exact .inl rfl

/-- Everything a host write can do (R282, R245). -/
theorem hostWriteAt_cases (off width : Nat) (v : Word) (s : State) :
    hostWriteAt off width v s = s ∨
    hostWriteAt off width v s = s.raise .badAccess ∨
    hostWriteAt off width v s = s.raise .busyAccess ∨
    (badAccess off width = false ∧ s.fsm = .idle ∧ ∃ k, ibufIndex s.build off = some k ∧
      hostWriteAt off width v s = s.storeBytes k (leBytes v width)) ∨
    (badAccess off width = false ∧ regAt off = some .cmd ∧ hostWriteAt off width v s = accept v s) ∨
    (badAccess off width = false ∧ regAt off = some .status ∧
      hostWriteAt off width v s = statusWrite v s) ∨
    (badAccess off width = false ∧ s.fsm = .idle ∧ ∃ r, regAt off = some r ∧ hostWritable r = true ∧
      hostWriteAt off width v s = s.writeReg r v) := by
  unfold hostWriteAt
  split
  · exact .inr (.inl rfl)
  · rename_i hb
    have hb : badAccess off width = false := by simpa using hb
    split
    · rename_i k hk
      unfold writeIbuf
      split
      · exact .inr (.inr (.inl rfl))
      · rename_i hf
        have hidle : s.fsm = .idle := by
          cases h : s.fsm
          · rfl
          · exact absurd h hf
        exact .inr (.inr (.inr (.inl ⟨hb, hidle, k, hk, rfl⟩)))
    · rcases writeRegister_cases off v s with h | h | ⟨h1, h⟩ | ⟨h1, h⟩ | ⟨h1, h2⟩
      · exact .inl h
      · exact .inr (.inr (.inl h))
      · exact .inr (.inr (.inr (.inr (.inl ⟨hb, h1, h⟩))))
      · exact .inr (.inr (.inr (.inr (.inr (.inl ⟨hb, h1, h⟩)))))
      · exact .inr (.inr (.inr (.inr (.inr (.inr ⟨hb, h1, h2⟩)))))

/-- Everything a host read can do: a value is given, and at most a draw taken or BAD_ACCESS raised (R282, R70). -/
theorem hostReadAt_cases (off width : Nat) (s : State) :
    (badAccess off width = true ∧ hostReadAt off width s = (s.raise .badAccess).give 0) ∨
    (badAccess off width = false ∧ ∃ v d, hostReadAt off width s = (s.give v).drawIf d) := by
  have noDraw : ∀ v, s.give v = (s.give v).drawIf false := fun _ => rfl
  unfold hostReadAt
  split
  · exact .inl ⟨‹_›, rfl⟩
  · rename_i hb
    refine .inr ⟨by simpa using hb, ?_⟩
    split
    · exact ⟨_, _, rfl⟩
    · split
      · exact ⟨_, false, noDraw _⟩
      · unfold readRegister
        split
        · exact ⟨_, _, rfl⟩
        · split
          · exact ⟨_, _, rfl⟩
          · exact ⟨_, false, noDraw _⟩

/-- Everything a step that answers a next state can do (R280): nothing, a host access inside the window, a completion of the latched command, or a reset. -/
theorem step_cases {s t : State} (h : step s = .next t) :
    (nextMove s = none ∧ t = s) ∨
    (∃ addr w v off, nextMove s = some (.hostWrite addr w v) ∧ portOffset s.build addr = some off ∧
      t = (hostWriteAt off w v s).popMove) ∨
    (∃ addr w off, nextMove s = some (.hostRead addr w) ∧ portOffset s.build addr = some off ∧
      t = (hostReadAt off w s).popMove) ∨
    (nextMove s = some .complete ∧ s.fsm = .idle ∧ t = s.popMove) ∨
    (nextMove s = some .complete ∧ s.fsm = .exec ∧ ∃ c i u, s.pend = some c ∧ decode c = .ok i ∧
      exec i s = .next u ∧ t = u.retire.popMove) ∨
    (nextMove s = some .reset ∧ t = s.resetAll.popMove) := by
  unfold step at h
  split at h
  · rename_i hm
    exact .inl ⟨hm, by simpa using h.symm⟩
  · rename_i m hm
    obtain ⟨u, hu, rfl⟩ := onNext_eq_next h
    cases m with
    | hostWrite addr w v =>
      simp only [perform, hostWrite] at hu
      split at hu
      · simp at hu
      · rename_i off hoff
        simp only [Host.Outcome.next.injEq] at hu
        exact .inr (.inl ⟨addr, w, v, off, hm, hoff, by rw [hu]⟩)
    | hostRead addr w =>
      simp only [perform, hostRead] at hu
      split at hu
      · simp at hu
      · rename_i off hoff
        simp only [Host.Outcome.next.injEq] at hu
        exact .inr (.inr (.inl ⟨addr, w, off, hm, hoff, by rw [hu]⟩))
    | complete =>
      simp only [perform] at hu
      split at hu
      · rename_i hf
        unfold complete at hu
        split at hu
        · simp at hu
        · rename_i c hc
          split at hu
          · simp at hu
          · rename_i i hi
            obtain ⟨v, hv, rfl⟩ := onNext_eq_next hu
            exact .inr (.inr (.inr (.inr (.inl ⟨hm, hf, c, i, v, hc, hi, hv, rfl⟩))))
      · rename_i hf
        have hidle : s.fsm = .idle := by
          cases h : s.fsm
          · rfl
          · exact absurd h hf
        simp only [Host.Outcome.next.injEq] at hu
        exact .inr (.inr (.inr (.inl ⟨hm, hidle, by rw [hu]⟩)))
    | reset =>
      simp only [perform, Host.Outcome.next.injEq] at hu
      exact .inr (.inr (.inr (.inr (.inr ⟨hm, by rw [hu]⟩))))

end Sys2Proof.Machine
end

