-- ==== Sys2Proof/Laws/Run.lean ====
section
/-! SUPPORT. Runs of several steps (Host.Core.run), and the step for each kind of next move. -/

namespace Sys2Proof.Machine

/-- A run of no steps. -/
@[simp] theorem run_zero (s : State) : Host.Core.run Sys2Proof.core 0 s = .next s := rfl

/-- A run goes on from a next state. -/
theorem run_succ_of_next {s t : State} (k : Nat) (h : step s = .next t) :
    Host.Core.run Sys2Proof.core (k + 1) s = Host.Core.run Sys2Proof.core k t := by
  have h' : Sys2Proof.core.step s = .next t := h
  simp only [Host.Core.run, h']

/-- The step of a host write inside the window. -/
theorem step_hostWrite {s : State} {addr w off : Nat} {v : Word} {rest : List Move}
    (ha : s.agenda = .hostWrite addr w v :: rest) (ho : portOffset s.build addr = some off) :
    step s = .next (hostWriteAt off w v s).popMove := by
  simp only [step, nextMove, ha, perform, hostWrite, ho, onNext]

/-- The step of a host read inside the window. -/
theorem step_hostRead {s : State} {addr w off : Nat} {rest : List Move}
    (ha : s.agenda = .hostRead addr w :: rest) (ho : portOffset s.build addr = some off) :
    step s = .next (hostReadAt off w s).popMove := by
  simp only [step, nextMove, ha, perform, hostRead, ho, onNext]

/-- The step of a completion. -/
theorem step_complete {s t : State} {c : Word} {i : Instr} (hm : nextMove s = some .complete) (hf : s.fsm = .exec)
    (hp : s.pend = some c) (hd : decode c = .ok i) (he : exec i s = .next t) : step s = .next t.retire.popMove := by
  simp only [step, hm, perform, hf, if_true, complete, hp, hd, he, onNext]

/-- The offset of an access at BASE plus an offset that the port's width holds. -/
theorem portOffset_base {bld : Build} {off : Nat} (h : off < 0x1000) :
    portOffset bld (bld.base + off) = some off := by
  have h12 : 2 ^ 12 ≤ 2 ^ portWidth bld := by
    apply Nat.pow_le_pow_right (by decide)
    unfold portWidth
    rcases Nat.eq_zero_or_pos bld.bufBytes with hz | hp
    · rw [hz]; decide
    · have : 2 ^ 12 ≤ 0x1000 + bld.bufBytes - 1 := by omega
      have := (Nat.le_log2 (by omega)).2 this
      omega
  unfold portOffset
  rw [if_pos ⟨by omega, by omega⟩]
  congr 1
  omega

end Sys2Proof.Machine
end

