-- ==== Sys2Proof/Tests/Slice0.lean ====
section
/-! SUPPORT. The model's own tests: expected values are those of spec/95_test_vectors.md (V1 to V8) and of the rules' examples. And one witness or more for every statement of Certificates/Slice0/Obligations.lean that has hypotheses. -/

namespace Sys2Proof.Tests

open Sys2Proof.Machine

/-! ### Helpers -/

/-- "hello world". -/
def hello : List Byte := [0x68, 0x65, 0x6c, 0x6c, 0x6f, 0x20, 0x77, 0x6f, 0x72, 0x6c, 0x64]

/-- `pat(n)` of 95_test_vectors. -/
def pat (n : Nat) : List Byte := (List.range n).map (fun i => BitVec.ofNat 8 i)

/-- The reset state with these bytes at IBUF index `k`, and the chunk registers on them. -/
def loadedAt (k : Nat) (bs : List Byte) : State :=
  { State.reset with
    ibuf := memSetBytes [] k bs
    chunkOff := BitVec.ofNat 64 k
    chunkLen := BitVec.ofNat 64 bs.length }

/-- The reset state with these two arguments. -/
def withArgs (x y : Word) : State := { State.reset with arg0 := x, arg1 := y }

/-- A state with a command latched. -/
def busyWith (c : Word) (s : State) : State := { s with fsm := .exec, pend := some c }

/-- A state with moves to come. -/
def facing (moves : List Move) (s : State) : State := { s with agenda := moves }

/-- One field of the state after a command, none where it stops. -/
def after {α : Type} (i : Instr) (s : State) (f : State → α) : Option α := (nextState (exec i s)).map f

/-- One field of the state after a step, none where it stops. -/
def afterStep {α : Type} (s : State) (f : State → α) : Option α := (nextState (step s)).map f

/-- A build with the smallest buffer of R9. -/
def smallBuild : Build := { Build.default with bufBytes := 128, base := 0x40000000 }

/-- A build with the largest buffer of R9. -/
def largeBuild : Build := { Build.default with bufBytes := 2 ^ 20 }

/-! ### Well-formedness: an ill-formed term for each check -/

theorem test_wf_legal_word : (fieldsOf 0x803).wf = true := by decide
theorem test_wf_reserved_op : (fieldsOf 0x006).opDefined = false ∧ (fieldsOf 0x0ff).opDefined = false := by decide
theorem test_wf_reserved_bits : (fieldsOf 0x1000).rsvZero = false ∧ (fieldsOf 0x8000000000000000).rsvZero = false := by decide
theorem test_wf_seed_select : (fieldsOf 0x102).dAllowed = false := by decide
theorem test_wf_width_field : (fieldsOf 0x202).wAllowed = false := by decide
theorem test_wf_width_code : (fieldsOf 0xA03).wInRange = false := by decide
theorem test_wf_each_refuses : ([0x006, 0x1000, 0x102, 0x202, 0xA03] : List Word).map (fun w => (fieldsOf w).wf) = [false, false, false, false, false] := by decide
theorem test_wf_build_even_secret : ({ Build.default with secret1 := 2 } : Build).wf = false := by decide
theorem test_wf_build_not_power_of_two : ({ Build.default with bufBytes := 4095 } : Build).wf = false := by decide
theorem test_wf_build_out_of_range :
    ({ Build.default with bufBytes := 64 } : Build).wf = false ∧ ({ Build.default with bufBytes := 2 ^ 21 } : Build).wf = false := by decide
theorem test_wf_builds : Build.default.wf = true ∧ smallBuild.wf = true ∧ largeBuild.wf = true := by decide

/-! ### Decoding: words written out bit by bit, RSV ++ W ++ D ++ OP (R90 to R93) -/

theorem test_decode_nop : decode (0#52 ++ 0b000#3 ++ 0b0#1 ++ 0b00000000#8) = .ok .nop := by rfl
theorem test_decode_init : decode (0#52 ++ 0b000#3 ++ 0b0#1 ++ 0b00000001#8) = .ok .init := by rfl
theorem test_decode_initDs : decode (0#52 ++ 0b000#3 ++ 0b1#1 ++ 0b00000001#8) = .ok .initDs := by rfl
theorem test_decode_write : decode (0#52 ++ 0b000#3 ++ 0b0#1 ++ 0b00000010#8) = .ok .write := by rfl
theorem test_decode_writei8 : decode (0#52 ++ 0b000#3 ++ 0b0#1 ++ 0b00000011#8) = .ok .writei8 := by rfl
theorem test_decode_writei16 : decode (0#52 ++ 0b001#3 ++ 0b0#1 ++ 0b00000011#8) = .ok .writei16 := by rfl
theorem test_decode_writei32 : decode (0#52 ++ 0b010#3 ++ 0b0#1 ++ 0b00000011#8) = .ok .writei32 := by rfl
theorem test_decode_writei64 : decode (0#52 ++ 0b011#3 ++ 0b0#1 ++ 0b00000011#8) = .ok .writei64 := by rfl
theorem test_decode_writei128 : decode (0#52 ++ 0b100#3 ++ 0b0#1 ++ 0b00000011#8) = .ok .writei128 := by rfl
theorem test_decode_finish : decode (0#52 ++ 0b000#3 ++ 0b0#1 ++ 0b00000100#8) = .ok .finish := by rfl
theorem test_decode_hash : decode (0#52 ++ 0b000#3 ++ 0b0#1 ++ 0b00000101#8) = .ok .hash := by rfl
theorem test_decode_hashDs : decode (0#52 ++ 0b000#3 ++ 0b1#1 ++ 0b00000101#8) = .ok .hashDs := by rfl
theorem test_decode_mum : decode (0#52 ++ 0b000#3 ++ 0b0#1 ++ 0b00010000#8) = .ok .mum := by rfl
theorem test_decode_mix : decode (0#52 ++ 0b000#3 ++ 0b0#1 ++ 0b00010001#8) = .ok .mix := by rfl
theorem test_decode_evolve : decode (0#52 ++ 0b000#3 ++ 0b0#1 ++ 0b00010010#8) = .ok .evolve := by rfl
theorem test_decode_read32 : decode (0#52 ++ 0b000#3 ++ 0b0#1 ++ 0b00010011#8) = .ok .read32 := by rfl
theorem test_decode_read64 : decode (0#52 ++ 0b000#3 ++ 0b0#1 ++ 0b00010100#8) = .ok .read64 := by rfl
theorem test_decode_core : decode (0#52 ++ 0b000#3 ++ 0b0#1 ++ 0b00010101#8) = .ok .core := by rfl
/-- R97's words in hex, as opcode_table.json gives them. -/
theorem test_encode_words :
    [Instr.nop, .init, .initDs, .write, .writei8, .writei16, .writei32, .writei64, .writei128, .finish, .hash, .hashDs,
      .mum, .mix, .evolve, .read32, .read64, .core].map encode
    = [0x000, 0x001, 0x101, 0x002, 0x003, 0x203, 0x403, 0x603, 0x803, 0x004, 0x005, 0x105,
      0x010, 0x011, 0x012, 0x013, 0x014, 0x015] := by decide
theorem test_decode_illegal_hint : decode 0x016 = .error .reservedOp ∧ decode 0xE03 = .error .widthCode := ⟨rfl, rfl⟩
theorem test_table_word : decodeTableWord 64 0x803 = some .writei128 ∧ decodeTableWord 64 0x106 = none := by decide
theorem test_placed_word_runs :
    afterStep (State.reset.withFetchWord 64 0x101) (fun t => (t.fsm, t.pend, t.seed, t.agenda))
      = some (.idle, none, 0xbdd89aa982704029, []) := by decide

/-! ### One command each (V1 to V7) -/

/-- R220's example. -/
theorem test_nop : nextState (exec .nop (withArgs 1 2)) = some (withArgs 1 2) := by decide
/-- R201's example. -/
theorem test_init : after .init (withArgs 12345 7) (fun t => (t.seed, t.accA, t.accB, t.size)) = some (12345, 0, 0, 0) := by decide
/-- R201, R270. -/
theorem test_initDs :
    after .initDs { withArgs 12345 7 with size := 9, accA := 3 } (fun t => (t.seed, t.accA, t.accB, t.size))
      = some (0xbdd89aa982704029, 0, 0, 0) := by decide
/-- V7.1, row WRITE "hello world". -/
theorem test_write_hello : after .write (loadedAt 0 hello) (fun t => (t.seed, t.accA, t.accB, t.size, t.band, t.ovf))
    = some (0x763305bbe7bea53d, 0x22a12cdb354b6e86, 0x16e16f353f0d5ac3, 11, 3, false) := by decide +kernel
/-- V7.1, the overflow row: SIZE wraps to 1 and OVF is set. -/
theorem test_write_wraps :
    after .write { loadedAt 5 [0x61, 0x62, 0x63] with size := 0xfffffffffffffffe } (fun t => (t.seed, t.accA, t.accB, t.size, t.ovf, t.err))
      = some (0x763305bbe7bea537, 0xf1b20d52e57caa86, 0x6c5fbafa5ef0b914, 1, true, 0) := by decide +kernel
/-- V7.2, row WRITEI.8 with 0x1ff: only the low byte counts. -/
theorem test_writei8 : (after .writei8 (withArgs 0x1ff 5) id).bind (fun t => after .finish t State.res0)
    = some 0x3dce32e6e1d41fee := by decide +kernel
/-- V7.2, row WRITEI.16. -/
theorem test_writei16 : (after .writei16 (withArgs 0xbeef 5) id).bind (fun t => after .finish t State.res0)
    = some 0x744b1c66674bb5d1 := by decide +kernel
/-- V7.2, row WRITEI.32. -/
theorem test_writei32 : (after .writei32 (withArgs 0xdeadbeef 5) id).bind (fun t => after .finish t State.res0)
    = some 0xbf970709edd54925 := by decide +kernel
/-- V7.2, the state after row 6, with ARG1 set and ignored. -/
theorem test_writei64 : after .writei64 (withArgs 0x0123456789abcdef 5) (fun t => (t.seed, t.accA, t.accB, t.size, t.band))
    = some (0x763305bbe7bea53e, 0xf8f41929e890770e, 0x00f73542fd4c3190, 8, 3) := by decide +kernel
/-- V7.2, row WRITEI.128. -/
theorem test_writei128 :
    (after .writei128 (withArgs 0x0123456789abcdef 0xfedcba9876543210) id).bind (fun t => after .finish t (fun u => (u.res0, u.band)))
      = some (0x7071f97a6e9eff2e, 4) := by decide +kernel
/-- V4, row "hello world". -/
theorem test_finish :
    after .finish { State.reset with accA := 0x22a12cdb354b6e86, accB := 0x16e16f353f0d5ac3, size := 11, res1 := 5 }
      (fun t => (t.res0, t.res1)) = some (0xf2d71876bf6d2e13, 0) := by decide
/-- V7.1, row (nothing); R211. -/
theorem test_finish_empty : after .finish State.reset State.res0 = some 0xca813bf4c7abf0a9 := by decide
/-- V6.2, seed 0; P1 step 10. -/
theorem test_hash : after .hash (loadedAt 9 hello) (fun t => (t.res0, t.res1, t.band, t.seed))
    = some (0x58a89bdcee89c08c, 0, 3, 0xbdd89aa982704029) := by decide +kernel
/-- P1 step 5. -/
theorem test_hashDs_hello : after .hashDs (loadedAt 0 hello) State.res0 = some 0xf2d71876bf6d2e13 := by decide +kernel
/-- V6.1, n = 144: one loop turn, a 48-byte round, no tail round. -/
theorem test_hashDs_long : after .hashDs (loadedAt 0 (pat 144)) (fun t => (t.res0, t.band)) = some (0xdef01ad2d19a9506, 8) := by decide +kernel
/-- V1, the largest product. -/
theorem test_mum : after .mum (withArgs 0xffffffffffffffff 0xffffffffffffffff) (fun t => (t.res0, t.res1))
    = some (1, 0xfffffffffffffffe) := by decide
/-- V1, row S0, S1. -/
theorem test_mix : after .mix (withArgs 0x2d358dccaa6c78a5 0x8bb84b93962eacc9) (fun t => (t.res0, t.res1))
    = some (0xca813bf4c7abf0a9, 0) := by decide
/-- V3, row DS, 11. -/
theorem test_evolve : after .evolve (withArgs 0xbdd89aa982704029 11) (fun t => (t.res0, t.res1))
    = some (0x763305bbe7bea53d, 0) := by decide
/-- V2, CHUNK_OFF = 4, CHUNK_LEN = 8: offsets are relative to the chunk. -/
theorem test_read32 : after .read32 { loadedAt 0 (pat 16) with chunkOff := 4, chunkLen := 8 } State.res0
    = some 0x07060504 := by decide +kernel
/-- V2, the last legal offset. -/
theorem test_read32_last : after .read32 { loadedAt 0 (pat 16) with arg0 := 12 } (fun t => (t.res0, t.res1, t.err))
    = some (0x0f0e0d0c, 0, 0) := by decide +kernel
/-- V2, unaligned. -/
theorem test_read64 : after .read64 { loadedAt 0 (pat 16) with arg0 := 3 } State.res0 = some 0x0a09080706050403 := by decide +kernel
/-- V2, the last legal offset. -/
theorem test_read64_last : after .read64 { loadedAt 0 (pat 16) with arg0 := 8 } State.res0 = some 0x0f0e0d0c0b0a0908 := by decide +kernel
/-- V5.4. -/
theorem test_core : after .core { loadedAt 0 hello with seed := 0x763305bbe7bea53d } (fun t => (t.seed, t.accA, t.accB, t.size, t.band))
    = some (0x763305bbe7bea53d, 0x22a12cdb354b6e86, 0x16e16f353f0d5ac3, 0, 3) := by decide +kernel
/-- V5.3, n = 17: one tail round. -/
theorem test_core_tail : after .core { loadedAt 0 (pat 17) with seed := 0x763305bbe7bea527 } (fun t => (t.seed, t.band))
    = some (0x242ce02aa2be8909, 5) := by decide +kernel
/-- R34, R281: an undefined chunk byte records the model fault and the command completes. -/
theorem test_undefined_byte :
    after .hashDs { loadedAt 0 hello with chunkLen := 12 } (fun t => (t.modelFault, t.draws, t.band, t.err))
      = some (some .ibufUndefined, 1, 3, 0) := by decide +kernel
/-- R164, R272 step 3: READ32 is a chunk command, so an undefined byte that it does not read counts too. -/
theorem test_read32_undefined_elsewhere :
    after .read32 { loadedAt 0 (pat 16) with chunkLen := 17 } (fun t => (t.res0, t.res1, t.modelFault, t.err))
      = some (0x03020100, 0, some .ibufUndefined, 0) := by decide +kernel

/-! ### The port and acceptance (V8) -/

/-- V8, rows on illegal words. -/
theorem test_accept_illegal :
    ([0x106, 0x102, 0xA03, 0x1000, 0x0FF] : List Word).map (fun w => ((hostWriteAt 0x010 8 w State.reset).err, (hostWriteAt 0x010 8 w State.reset).fsm))
      = List.replicate 5 (1, .idle) := by decide
/-- V8, row WRITEI.16. -/
theorem test_accept_legal : (hostWriteAt 0x010 8 0x203 State.reset).fsm = .exec ∧ (hostWriteAt 0x010 8 0x203 State.reset).pend = some 0x203 := by decide
/-- V8, rows on the chunk's range: exact sums. -/
theorem test_accept_range :
    (hostWriteAt 0x010 8 0x002 { State.reset with chunkOff := 4090, chunkLen := 16 }).err = 2 ∧
    (hostWriteAt 0x010 8 0x005 { State.reset with chunkLen := 4096 }).fsm = .exec ∧
    (hostWriteAt 0x010 8 0x005 { State.reset with chunkOff := 1, chunkLen := 0xffffffffffffffff }).err = 2 ∧
    (hostWriteAt 0x010 8 0x004 { State.reset with chunkOff := 4090, chunkLen := 16 }).fsm = .exec := by decide
/-- V8 and V2, rows on the offset of READ32 and READ64, and the order of R247. -/
theorem test_accept_bounds :
    (hostWriteAt 0x010 8 0x014 { State.reset with chunkOff := 4090, chunkLen := 16, arg0 := 100 }).err = 2 ∧
    (hostWriteAt 0x010 8 0x013 { State.reset with chunkLen := 16, arg0 := 13 }).err = 3 ∧
    (hostWriteAt 0x010 8 0x014 { State.reset with chunkLen := 16, arg0 := 0xfffffffffffffff9 }).err = 3 ∧
    (hostWriteAt 0x010 8 0x106 { State.reset with chunkOff := 4090, chunkLen := 16 }).err = 1 := by decide
/-- V8, row NOP while ERR = 1. -/
theorem test_accept_halted : hostWriteAt 0x010 8 0x000 { State.reset with err := 1 } = { State.reset with err := 1 } := by decide
/-- V8, rows on writes while BUSY = 1. -/
theorem test_busy_writes :
    hostWriteAt 0x040 8 7 (busyWith 0 State.reset) = { busyWith 0 State.reset with err := 4 } ∧
    hostWriteAt 0x1000 1 0x55 (busyWith 0 State.reset) = { busyWith 0 State.reset with err := 4 } ∧
    hostWriteAt 0x018 8 0x8 { busyWith 0 State.reset with err := 4 } = busyWith 0 State.reset := by decide
/-- V8, rows on bad accesses. -/
theorem test_bad_accesses :
    hostWriteAt 0x040 4 5 State.reset = { State.reset with err := 6 } ∧
    hostReadAt 0x018 4 State.reset = { State.reset with err := 6, returned := [0] } ∧
    hostWriteAt 0x1003 8 1 State.reset = { State.reset with err := 6 } ∧
    hostWriteAt 0x1000 3 1 State.reset = { State.reset with err := 6 } := by decide
/-- V8, row st.4 0x1004. -/
theorem test_ibuf_little_endian : (hostWriteAt 0x1004 4 0x44332211 State.reset).ibuf = [(4, 0x11), (5, 0x22), (6, 0x33), (7, 0x44)] := by decide
/-- V8, rows on the reserved offset and ID, and R22. -/
theorem test_inert_offsets :
    hostReadAt 0x0a0 8 State.reset = { State.reset with returned := [0] } ∧
    hostWriteAt 0x000 8 5 State.reset = State.reset ∧
    hostReadAt 0x000 8 State.reset = { State.reset with returned := [0x5241504944480001] } := by decide
/-- V8, row st.8 0x018, 0xA. -/
theorem test_status_clears : hostWriteAt 0x018 8 0xA { State.reset with err := 3, ovf := true } = State.reset := by decide
/-- V8, last row: the first error sticks. -/
theorem test_first_error_sticks : (hostWriteAt 0x1000 3 1 { State.reset with err := 2 }).err = 2 := by decide
/-- P1 step 6: STATUS reads 0x300. -/
theorem test_status_word : hostReadAt 0x018 8 { State.reset with band := 3 } = { State.reset with band := 3, returned := [0x300] } := by decide
/-- R62: with BUF_BYTES = 4096 the port is 13 bits wide, and 0x2000 is outside the window. -/
theorem test_window : portWidth Build.default = 13 ∧ portOffset Build.default 0x1fff = some 0x1fff ∧
    portOffset Build.default 0x2000 = none ∧ portOffset smallBuild 0x40000010 = some 0x010 ∧
    portOffset smallBuild 0x3fffffff = none ∧ portWidth smallBuild = 13 ∧ portWidth largeBuild = 21 ∧
    portOffset largeBuild 0x100fff = some 0x100fff := by decide
/-- R274: the host's last access ends a run, whatever the datapath or the platform may still do. -/
theorem test_ended :
    (facing [.complete, .reset] State.reset).Ended ∧ ¬ (facing [.complete, .hostRead 0x018 8] State.reset).Ended ∧
      ¬ (busyWith 0 State.reset).Ended := by
  unfold State.Ended; decide

/-! ### Witnesses: each meets all hypotheses of the statement it is named after -/

/-- Illegal words on each ground of R98, at the edges of each field. -/
theorem witness_IllegalWordsAreThoseOfTheFiveGrounds :
    ([0x006, 0x00F, 0x016, 0x0FF, 0x1000, 0x8000000000000000, 0x100, 0x115, 0x202, 0xE05, 0xA03, 0xE03] : List Word).map
      (fun w => (decode w).toOption) = List.replicate 12 none ∧ State.reset.fsm = .idle ∧ State.reset.err = 0 := by decide

/-- The smallest and the largest build of R9. -/
theorem witness_ResetLeavesTheSpecValues : smallBuild.wf = true ∧ largeBuild.wf = true := by decide

/-- A reset with a command pending. -/
theorem witness_ResetAbandonsTheCommandAndHostCanRestart_reset :
    (facing [.reset, .complete] (busyWith 0x101 (withArgs 1 2))).agenda = .reset :: [.complete] := by decide

/-- The host's restart, of a block with a stream and an error. -/
theorem witness_ResetAbandonsTheCommandAndHostCanRestart_restart :
    let s := facing (scriptStore smallBuild 8 0x018 0xA ++ scriptCmd smallBuild .initDs ++ [.complete])
      { State.reset with build := smallBuild, err := 3, ovf := true, accA := 5 }
    s.fsm = .idle ∧ s.pend = none ∧
      s.agenda = scriptStore s.build 8 0x018 0xA ++ scriptCmd s.build .initDs ++ [.complete] := by decide

theorem witness_StepRunsTheLatchedCommand :
    let s := busyWith 0x803 (withArgs 1 2)
    s.fsm = .exec ∧ s.pend = some 0x803 ∧ decode 0x803 = .ok .writei128 ∧
      (s.agenda = [] ∨ ∃ rest, s.agenda = .complete :: rest) := ⟨rfl, rfl, rfl, .inl rfl⟩

/-- The same with the completion written in the agenda. -/
theorem witness_StepRunsTheLatchedCommand_complete :
    let s := facing [.complete, .reset] (busyWith 0x000 State.reset)
    s.fsm = .exec ∧ s.pend = some 0x000 ∧ decode 0x000 = .ok .nop ∧
      (s.agenda = [] ∨ ∃ rest, s.agenda = .complete :: rest) := ⟨rfl, rfl, rfl, .inr ⟨_, rfl⟩⟩

/-- A busy state of the invariant: NOP pending. -/
theorem inv_busyNop (moves : List Move) : (facing moves (busyWith 0 State.reset)).Inv where
  build := (by decide : Build.default.wf = true)
  latch := ⟨fun _ => rfl, fun _ => rfl⟩
  pending := fun c h => by
    obtain rfl : (0 : Word) = c := Option.some.inj h
    exact ⟨.nop, rfl, rfl⟩
  err := .inl rfl
  band := Nat.zero_le 8
  ibuf := rfl

theorem witness_StepKeepsTheInvariant :
    (facing [] (busyWith 0 State.reset)).Inv ∧ ∃ t, step (facing [] (busyWith 0 State.reset)) = .next t :=
  ⟨inv_busyNop [], _, rfl⟩

theorem witness_ResetMeetsTheInvariant : smallBuild.wf = true := by decide

theorem witness_StepKeepsTheConstants : ∃ t, step (busyWith 0x012 State.reset) = .next t := ⟨_, rfl⟩

/-- Acceptance sets BUSY. -/
theorem witness_BusyChangesOnlyByAcceptanceAndCompletion_set :
    let s := facing (scriptCmd Build.default .hashDs) State.reset
    s.fsm = .idle ∧ ∃ t, step s = .next t ∧ t.fsm = .exec := ⟨rfl, _, rfl, rfl⟩

/-- Completion clears BUSY. -/
theorem witness_BusyChangesOnlyByAcceptanceAndCompletion_complete :
    let s := busyWith 0x000 State.reset
    s.fsm = .exec ∧ ∃ t, step s = .next t ∧ t.fsm = .idle := ⟨rfl, _, rfl, rfl⟩

/-- Reset clears BUSY. -/
theorem witness_BusyChangesOnlyByAcceptanceAndCompletion_reset :
    let s := facing [.reset] (busyWith 0x000 State.reset)
    s.fsm = .exec ∧ ∃ t, step s = .next t ∧ t.fsm = .idle := ⟨rfl, _, rfl, rfl⟩

theorem witness_OperandsAreFrozenWhileBusy :
    let m : Move := .hostWrite 0x040 8 7
    let s := facing [m] (busyWith 0x000 State.reset)
    s.fsm = .exec ∧ nextMove s = some m ∧ m ≠ .complete ∧ m ≠ .reset ∧ ∃ t, step s = .next t :=
  ⟨rfl, rfl, by decide, by decide, _, rfl⟩

/-- The checks hold: at the end of IBUF for a chunk command, and of the chunk for a reader. -/
theorem witness_EveryCommandCompletes :
    operandCheck .nop State.reset = none ∧
    operandCheck .hash { State.reset with chunkLen := 4096 } = none ∧
    operandCheck .read64 { loadedAt 0 (pat 16) with arg0 := 8 } = none := by decide +kernel

theorem witness_EveryRunReachesIdle :
    let moves : List Move := [.hostRead 0x018 8, .hostWrite 0x1fff 1 5, .complete, .hostWrite 0x010 8 0x004]
    (facing moves (busyWith 0 State.reset)).Inv ∧ agendaInWindow Build.default moves := by
  refine ⟨inv_busyNop _, fun m hm => ?_⟩
  simp only [List.mem_cons, List.not_mem_nil, or_false] at hm
  rcases hm with rfl | rfl | rfl | rfl <;> trivial

/-- One state of each alternative; the last offset of each legal build's window contents; an address below BASE. -/
theorem witness_StepStopsOnlyOutsideTheWindow :
    (facing [] (busyWith 0 State.reset)).Inv ∧ (facing [.hostRead 0x2000 8] (busyWith 0 State.reset)).Inv ∧
      step (facing [.hostRead 0x2000 8] (busyWith 0 State.reset)) = .fault .outsideWindow ∧
      (∀ b ∈ [smallBuild, Build.default, largeBuild], b.wf = true ∧ 0x1000 + (b.bufBytes - 1) < 0x1000 + b.bufBytes) ∧
      0x3fffffff < smallBuild.base :=
  ⟨inv_busyNop _, inv_busyNop _, rfl, by decide, by decide⟩

theorem witness_RaiseKeepsTheFirstError :
    State.reset.err = 0 ∧ { State.reset with err := 6 }.err ≠ (0 : BitVec 4) := by decide

/-- ERR is raised. -/
theorem witness_ErrIsStickyUntilCleared_raised :
    let s := facing [.hostWrite 0x040 4 0] State.reset
    ∃ t, step s = .next t ∧ t.err ≠ s.err := ⟨_, rfl, by decide⟩

/-- ERR is cleared by ERRCLR, whose bit the word 8 holds. -/
theorem witness_ErrIsStickyUntilCleared_cleared :
    let s := facing (scriptClrErr Build.default) { State.reset with err := 2 }
    (0x8 : Word).getLsbD 3 = true ∧ ∃ t, step s = .next t ∧ t.err ≠ s.err := ⟨by decide, _, rfl, by decide⟩

/-- ERR is cleared by reset. -/
theorem witness_ErrIsStickyUntilCleared_reset :
    let s := facing [.reset] { State.reset with err := 2 }
    ∃ t, step s = .next t ∧ t.err ≠ s.err := ⟨_, rfl, by decide⟩

/-- OVF is set, at the least sum that sets it. -/
theorem witness_OvfIsStickyUntilCleared_set :
    let s := busyWith 0x003 { State.reset with size := 0xffffffffffffffff }
    nextMove s = some .complete ∧ s.fsm = .exec ∧ s.pend = some 0x003 ∧ (decode 0x003).toOption = some .writei8 ∧
      2 ^ 64 ≤ s.size.toNat + 1 ∧ s.ovf = false ∧ afterStep s State.ovf = some true := by decide +kernel

/-- OVF is cleared by a STATUS write of 1 to bit 1. -/
theorem witness_OvfIsStickyUntilCleared_cleared :
    let s := facing (scriptClrOvf Build.default) { State.reset with ovf := true }
    (0x2 : Word).getLsbD 1 = true ∧ ∃ t, step s = .next t ∧ s.ovf = true ∧ t.ovf = false := ⟨by decide, _, rfl, rfl, rfl⟩

/-- OVF is cleared by reset. -/
theorem witness_OvfIsStickyUntilCleared_reset :
    let s := facing [.reset] { State.reset with ovf := true }
    ∃ t, step s = .next t ∧ s.ovf = true ∧ t.ovf = false := ⟨_, rfl, rfl, rfl⟩

/-- BAND changes at a completion. -/
theorem witness_BandIsWrittenOnlyByCoreCommands_complete :
    let s := busyWith 0x105 (loadedAt 0 hello)
    nextMove s = some .complete ∧ s.fsm = .exec ∧ s.pend = some 0x105 ∧ (decode 0x105).toOption = some .hashDs ∧
      s.band = 0 ∧ afterStep s State.band = some 3 := by decide +kernel

/-- BAND changes at reset. -/
theorem witness_BandIsWrittenOnlyByCoreCommands_reset :
    let s := facing [.reset] { State.reset with band := 8 }
    ∃ t, step s = .next t ∧ t.band ≠ s.band := ⟨_, rfl, by decide⟩

theorem witness_CompletionIgnoresErr :
    operandCheck .write { State.reset with chunkOff := 4095, chunkLen := 1 } = none ∧
    operandCheck .read32 { State.reset with chunkLen := 4 } = none := by decide

theorem witness_SecondCommandWithoutWaitIsLost :
    let s := facing (scriptStore Build.default 8 0x010 0x012 ++ [.complete] ++ scriptStore Build.default 8 0x010 0x004)
      (busyWith 0x010 (withArgs 3 5))
    s.fsm = .exec ∧ s.pend = some 0x010 ∧ decode 0x010 = .ok .mum ∧ operandCheck .mum s = none ∧ s.err = 0 ∧
      s.agenda = scriptStore s.build 8 0x010 0x012 ++ [.complete] ++ scriptStore s.build 8 0x010 0x004 ∧
      ∃ t, exec .mum s = .next t := ⟨rfl, rfl, rfl, rfl, rfl, rfl, _, rfl⟩

/-- Each way to be bad alone, and the last legal access of each width. -/
theorem witness_BadAccessesRaiseSix :
    (3 ∉ [1, 2, 4, 8] ∧ 0x1002 % 3 = 0 ∧ ¬ 0x1002 < 0x1000) ∧
    (0x1003 % 8 ≠ 0 ∧ 8 ∈ [1, 2, 4, 8] ∧ ¬ 0x1003 < 0x1000) ∧ (0xffc < 0x1000 ∧ 4 ≠ 8 ∧ 0xffc % 4 = 0) ∧
    Build.default.wf = true ∧ (∀ w ∈ [1, 2, 4, 8], (0x1000 + Build.default.bufBytes - w) % w = 0 ∧
      0x1000 ≤ 0x1000 + Build.default.bufBytes - w ∧
      0x1000 + Build.default.bufBytes - w < 0x1000 + Build.default.bufBytes) := by decide

/-- The first and last reserved offsets, the first unmapped one, and bad accesses there. -/
theorem witness_ReservedAndUnmappedOffsetsAreInert :
    (∀ off ∈ [0x090, 0xff8], 0x090 ≤ off ∧ off < 0x1000 ∧ off % 8 = 0) ∧
    (∀ w ∈ [1, 2, 4, 8], 0x1000 + State.reset.build.bufBytes ≤ 0x2000 ∧ 0x2000 % w = 0) ∧
    (0x090 < 0x1000 ∧ 4 ≠ 8) ∧ 0x2001 % 2 ≠ 0 ∧ 3 ∉ [1, 2, 4, 8] := by decide

/-- A busy state, the first and last IBUF bytes, and reserved and unmapped offsets. -/
theorem witness_BusyWritesAreRejected :
    (busyWith 0 State.reset).fsm = .exec ∧
    (∀ off ∈ [0x1000, 0x1fff], 1 ∈ [1, 2, 4, 8] ∧ off % 1 = 0 ∧ 0x1000 ≤ off ∧ off < 0x1000 + (busyWith 0 State.reset).build.bufBytes) ∧
    (∀ off ∈ [0x090, 0xff8], 0x090 ≤ off ∧ off < 0x1000 ∧ off % 8 = 0) ∧
    (0x1000 + (busyWith 0 State.reset).build.bufBytes ≤ 0x2000 ∧ 2 ∈ [1, 2, 4, 8] ∧ 0x2000 % 2 = 0) := by decide

theorem witness_StatusFieldsAndWriteEffect : { State.reset with band := 8, err := 6 }.fsm = .idle := by decide

theorem witness_RegisterMapReadsAndWrites : (withArgs 1 2).fsm = .idle := by decide

/-- A busy state with defined last bytes of IBUF and undefined first ones, and legal reads of each width there and astride. -/
theorem witness_BusyReadsAreExactOrDrawn :
    let s := busyWith 0x105 (loadedAt 4085 hello)
    s.fsm = .exec ∧ 4095 < s.build.bufBytes ∧ memGet s.ibuf 4095 = some 0x64 ∧ memGet s.ibuf 0 = none ∧
      (∀ w ∈ [1, 2, 4, 8], w ∈ [1, 2, 4, 8] ∧ (∀ k ∈ [0, 4096 - w], k % w = 0 ∧ k < s.build.bufBytes) ∧
        (∀ i < w, memGet s.ibuf (4096 - w + i) ≠ none)) ∧
      (4080 % 8 = 0 ∧ memGet s.ibuf (4080 + 4) = none ∧ memGet s.ibuf (4080 + 5) = some 0x68) ∧
      0x1000 + s.build.bufBytes ≤ 0x2000 := by decide +kernel

/-- A register, the last register offset, an IBUF byte and an unmapped offset. -/
theorem witness_ReadsHaveNoSideEffect :
    ∀ p ∈ [(0x018, 8), (0xff8, 8), (0x1001, 1), (0x2000, 4)], p.2 ∈ [1, 2, 4, 8] ∧ p.1 % p.2 = 0 ∧ (p.1 < 0x1000 → p.2 = 8) := by decide

/-- The first index and the last of each width; reads of defined, undefined and partly undefined bytes, idle. -/
theorem witness_IbufWriteIsLittleEndianAndReadsBack :
    (let s := loadedAt 4085 hello
     s.fsm = .idle ∧ (∀ i < 8, memGet s.ibuf (4088 + i) ≠ none) ∧ memGet s.ibuf 4084 = none ∧
      memGet s.ibuf 4085 = some 0x68 ∧ 4088 % 8 = 0 ∧ 4084 % 2 = 0 ∧ 4088 < s.build.bufBytes) ∧
    State.reset.fsm = .idle ∧ ∀ w ∈ [1, 2, 4, 8], ∀ k ∈ [0, 4096 - w], k % w = 0 ∧ k < State.reset.build.bufBytes := by decide +kernel

/-- A byte changes by a host write. -/
theorem witness_IbufChangesOnlyByHostWritesAndReset_write :
    let s := facing [.hostWrite 0x1ff8 8 0x0102030405060708] State.reset
    ∃ t, step s = .next t ∧ memGet t.ibuf 4095 ≠ memGet s.ibuf 4095 := ⟨_, rfl, by decide⟩

/-- A byte becomes undefined by reset. -/
theorem witness_IbufChangesOnlyByHostWritesAndReset_reset :
    let s := facing [.reset] { State.reset with ibuf := [(0, 5)] }
    ∃ t, step s = .next t ∧ memGet t.ibuf 0 ≠ memGet s.ibuf 0 := ⟨_, rfl, by decide⟩

theorem witness_TwoNarrowWritesAreOneWideWrite :
    State.reset.fsm = .idle ∧ ∀ w ∈ [1, 2, 4], ∀ k ∈ [0, 4096 - 2 * w], k % (2 * w) = 0 ∧ k + 2 * w ≤ State.reset.build.bufBytes := by decide

/-- The example of R122: the halves of the product. -/
theorem witness_MixFoldsTheProduct :
    (0x2236d88fe5618cf0 : Word).toNat + (0x0121fa00ad77d742 : Word).toNat * 2 ^ 64
      = (0x0123456789abcdef : Word).toNat * (0xfedcba9876543210 : Word).toNat := by decide

/-- Each of the two ways to a zero digest. -/
theorem witness_FinishCornerCases :
    ((0x2d358dccaa6c78a6 : Word) ^^^ Build.default.secret0 ^^^ 3 = 0) ∧
    (Build.default.secret1 : Word) = Build.default.secret1 := by decide

/-- The last legal offsets of both readers, and the first illegal ones. -/
theorem witness_ReadersAreLittleEndian :
    8 + 8 ≤ (pat 16).length ∧ 12 + 4 ≤ (pat 16).length ∧
    (⟨(pat 16).map some, 0⟩ : Chunk).len < 9 + 8 ∧ (⟨(pat 16).map some, 0⟩ : Chunk).len < 13 + 4 := by decide

/-- Both ends of each band. -/
theorem witness_ShortBandSteps :
    (⟨[], 0⟩ : Chunk).len = 0 ∧
    (∀ n ∈ [1, 3], 1 ≤ (pat n).length ∧ (pat n).length ≤ 3) ∧
    (∀ n ∈ [4, 7], 4 ≤ (pat n).length ∧ (pat n).length ≤ 7) ∧
    (∀ n ∈ [8, 16], 8 ≤ (pat n).length ∧ (pat n).length ≤ 16) ∧
    (⟨(pat 16).map some, 0⟩ : Chunk).len ≤ 16 ∧
    (∀ n ∈ [1, 3], 1 ≤ (⟨(pat n).map some, 0⟩ : Chunk).len ∧ (⟨(pat n).map some, 0⟩ : Chunk).len ≤ 3) := by decide

theorem witness_BandClassesAndPathByLength : 48 < 49 ∧ 48 ≤ 49 % 96 ∧ 48 < 96 ∧ ¬ 48 ≤ 96 % 96 := by decide

theorem witness_NopCompletesWithNoEffect : (withArgs 1 2).fsm = .idle ∧ (withArgs 1 2).err = 0 := by decide

theorem witness_InitStartsAStream : (withArgs 12345 0).fsm = .idle ∧ (withArgs 12345 0).err = 0 := by decide

theorem witness_FinishGivesTheStreamDigest :
    { State.reset with chunkOff := 4090, chunkLen := 16 }.fsm = .idle ∧
      { State.reset with chunkOff := 4090, chunkLen := 16 }.err = 0 := by decide

theorem witness_PrimitiveProducts : (withArgs 3 5).fsm = .idle ∧ (withArgs 3 5).err = 0 := by decide

/-- No byte, eleven bytes, bytes up to the end of IBUF, and a chunk with an undefined byte. -/
theorem witness_WriteFoldsTheChunk :
    chunkHolds (loadedAt 0 []) [] ∧ chunkHolds (loadedAt 0 hello) hello ∧ chunkHolds (loadedAt 4085 hello) hello ∧
      chunkUndefined { loadedAt 0 hello with chunkLen := 12 } ∧
      (loadedAt 0 hello).fsm = .idle ∧ (loadedAt 0 hello).err = 0 := by
  unfold chunkHolds chunkUndefined; decide +kernel

theorem witness_IntegerWritesFoldTheirBytes :
    (Instr.writei8, 1) ∈ [(Instr.writei8, 1), (.writei16, 2), (.writei32, 4), (.writei64, 8), (.writei128, 16)] ∧
    (Instr.writei128, 16) ∈ [(Instr.writei8, 1), (.writei16, 2), (.writei32, 4), (.writei64, 8), (.writei128, 16)] ∧
    (withArgs 1 2).fsm = .idle ∧ (withArgs 1 2).err = 0 := by decide

/-- Two states with equal streams, for the narrowest and the widest integer. -/
theorem witness_IntegerWriteEqualsByteWrite :
    let s := withArgs 0x0123456789abcdef 0xfedcba9876543210
    ∀ n ∈ [1, 16],
      let u := loadedAt 7 ((List.range n).map (integerByte s))
      u.build = s.build ∧ u.seed = s.seed ∧ u.accA = s.accA ∧ u.accB = s.accB ∧ u.size = s.size ∧ u.ovf = s.ovf ∧
        chunkHolds u ((List.range n).map (integerByte s)) := by
  unfold chunkHolds; decide +kernel

theorem witness_HashGivesTheOneShotDigest :
    chunkHolds (loadedAt 0 []) [] ∧ chunkHolds (loadedAt 4080 (pat 16)) (pat 16) ∧
      chunkUndefined { State.reset with chunkLen := 1 } ∧ (loadedAt 0 []).fsm = .idle ∧ (loadedAt 0 []).err = 0 := by
  unfold chunkHolds chunkUndefined; decide +kernel

/-- The same bytes at two places, and the seed of HASH.DS in ARG0. -/
theorem witness_HashIsDeterministic :
    let s := { loadedAt 0 hello with arg0 := 0xbdd89aa982704029 }
    let u := { loadedAt 5 hello with arg0 := 0xbdd89aa982704029, accA := 9 }
    u.build = s.build ∧ chunkHolds s hello ∧ chunkHolds u hello ∧ u.arg0 = s.arg0 ∧ s.arg0 = s.build.defaultSeed := by
  unfold chunkHolds; decide +kernel

/-- The first and the last legal offset of both readers in a defined chunk, in an idle block without error. -/
theorem witness_ReadCommandsGiveChunkBytes :
    (loadedAt 0 (pat 16)).fsm = .idle ∧ (loadedAt 0 (pat 16)).err = 0 ∧
    (∀ p ∈ [(0, 4), (12, 4), (0, 8), (8, 8)], let s := { loadedAt 0 (pat 16) with arg0 := BitVec.ofNat 64 p.1 }
      chunkHolds s (pat 16) ∧ s.arg0.toNat + p.2 ≤ (pat 16).length) := by
  unfold chunkHolds; decide +kernel

/-- No byte, one tail round, an undefined byte, and both ends of the zero corner. -/
theorem witness_CoreCommandRunsTheEngine :
    chunkHolds (loadedAt 0 []) [] ∧ chunkHolds (loadedAt 0 (pat 17)) (pat 17) ∧
      chunkUndefined { State.reset with chunkLen := 1 } ∧ (loadedAt 0 []).fsm = .idle ∧ (loadedAt 0 []).err = 0 ∧
      ∀ n ∈ [1, 3], let s := { loadedAt 0 (pat n) with seed := 0 }
        1 ≤ s.chunkLen.toNat ∧ s.chunkLen.toNat ≤ 3 ∧ s.seed = 0 ∧ s.accA = 0 ∧ s.accB = 0 := by
  unfold chunkHolds chunkUndefined; decide +kernel

theorem witness_EvolveThenCoreEqualsWrite : chunkHolds (loadedAt 0 hello) hello := by
  unfold chunkHolds; decide +kernel

theorem witness_EmptyWriteChangesTheState : State.reset.chunkLen = 0 := by decide

/-- After INIT with any seed. -/
theorem witness_EmptyStreamDigest :
    let s := { withArgs 12345 0 with seed := 12345 }
    s.accA = 0 ∧ s.accB = 0 ∧ s.size = 0 := by decide

/-- An empty chunk, and one at the end of IBUF. -/
theorem witness_OneWriteEqualsOneShot :
    (∀ k ∈ [0, 4085],
      let s := { loadedAt k hello with arg0 := 7 }
      s.fsm = .idle ∧ s.err = 0 ∧ chunkHolds s hello ∧ s.chunkOff.toNat + s.chunkLen.toNat ≤ s.build.bufBytes ∧
      (Instr.init, Instr.hash, (7 : Word)) ∈ [(Instr.init, Instr.hash, s.arg0), (.initDs, .hashDs, s.build.defaultSeed)]) ∧
    (let s := loadedAt 4096 []
     s.fsm = .idle ∧ s.err = 0 ∧ chunkHolds s [] ∧ s.chunkOff.toNat + s.chunkLen.toNat ≤ s.build.bufBytes ∧
      (Instr.initDs, Instr.hashDs, s.build.defaultSeed) ∈ [(Instr.init, Instr.hash, s.arg0), (.initDs, .hashDs, s.build.defaultSeed)]) := by
  unfold chunkHolds; decide +kernel

/-- A block in the middle of a stream and another into which its registers were written back: with the same bytes elsewhere in IBUF (WRITE, CORE), and with an undefined chunk and other operands (FINISH and the rest). -/
theorem witness_StreamDependsOnlyOnItsRegisters :
    let s := { loadedAt 0 hello with seed := 3, accA := 4, accB := 5, size := 6, arg0 := 1, res0 := 9 }
    let u := { loadedAt 64 hello with seed := 3, accA := 4, accB := 5, size := 6, arg0 := 1, ovf := true }
    let v := { u with ibuf := [], arg0 := 7, arg1 := 8 }
    (∃ data, chunkHolds s data ∧ chunkHolds u data) ∧ u.build = s.build ∧ u.seed = s.seed ∧ u.accA = s.accA ∧
      u.accB = s.accB ∧ u.size = s.size ∧ u.arg0 = s.arg0 ∧ u.arg1 = s.arg1 ∧
      v.build = s.build ∧ v.seed = s.seed ∧ v.accA = s.accA ∧ v.accB = s.accB ∧ v.size = s.size ∧
      v.arg0 ≠ s.arg0 ∧ chunkUndefined v ∧
      Instr.finish ∉ [Instr.write, .core, .init, .writei8, .writei16, .writei32, .writei64, .writei128] := by
  unfold chunkHolds chunkUndefined
  exact ⟨⟨hello, by decide +kernel⟩, by decide +kernel⟩

/-- One command of each group of the frame, and the two conditions that depend on the state. -/
theorem witness_CommandsWriteOnlyWhatTheTableLists :
    (∀ i ∈ [Instr.nop, .initDs, .writei64, .finish, .core], (nextState (exec i State.reset)).isSome = true) ∧
    operandCheck .core State.reset = none ∧
    Instr.mum ∉ [Instr.write, .hash, .hashDs, .core, .read32, .read64] := by decide +kernel

/-- A chunk with its last byte undefined, a read that meets that byte and one that does not, and a defined byte of each read. -/
theorem witness_UndefinedBytesAreRecorded :
    let s := { loadedAt 0 hello with chunkLen := 12 }
    (nextState (exec .hash s)).isSome = true ∧ (∃ o < s.chunkLen.toNat, memGet s.ibuf (s.chunkOff.toNat + o) = none) ∧
    (∀ p ∈ [(Instr.read32, 4, (8 : Word)), (.read64, 8, 3)],
      (memGet s.ibuf (s.chunkOff.toNat + (p.2.2.toNat + 0))).isSome = true ∧ { s with arg0 := p.2.2 }.arg0.toNat + p.2.1 ≤ s.chunkLen.toNat ∧
      (nextState (exec p.1 { s with arg0 := p.2.2 })).isSome = true) := by decide +kernel

end Sys2Proof.Tests
end

/-! The statements of 00_scope: `raise Error` keeps the first code (R15), and no step changes the build or the registers that show it (R9). -/

namespace Sys2Proof.Machine

/-! ### `raise Error` (R15) -/

/-- With no error recorded, `raise` records its code. -/
theorem raise_of_err_zero (e : ErrorCode) {s : State} (h : s.err = 0) :
    s.raise e = { s with err := e.code } := by
  simp only [State.raise, h, if_true]

/-- With an error recorded, `raise` has no effect. -/
theorem raise_of_err_ne_zero (e : ErrorCode) {s : State} (h : s.err ≠ 0) : s.raise e = s := by
  simp only [State.raise, h, if_false]

/-- Settles O15: the two cases of `raise`, and the code of each error. -/
theorem raiseKeepsTheFirstError : Obligations.RaiseKeepsTheFirstError :=
  ⟨fun e _ h => raise_of_err_zero e h, fun e _ h => raise_of_err_ne_zero e h, rfl, rfl, rfl, rfl, rfl, rfl⟩

/-! ### Completions keep the build (R9) -/

@[simp] theorem foldChunk_build (c : Chunk) (s : State) : (foldChunk c s).build = s.build := by
  obtain ⟨-, h⟩ | ⟨_, _, _, -, h⟩ := foldChunk_cases c s <;> simp [h]

@[simp] theorem hashChunk_build (seed : Word) (c : Chunk) (s : State) : (hashChunk seed c s).build = s.build := by
  obtain ⟨-, h⟩ | ⟨_, _, _, -, h⟩ := hashChunk_cases seed c s <;> simp [h]

@[simp] theorem coreChunk_build (c : Chunk) (s : State) : (coreChunk c s).build = s.build := by
  obtain ⟨-, h⟩ | ⟨_, _, _, -, h⟩ := coreChunk_cases c s <;> simp [h]

@[simp] theorem readResult_build (v : Option Word) (s : State) : (readResult v s).build = s.build := by
  obtain ⟨-, h⟩ | ⟨_, -, h⟩ := readResult_cases v s <;> simp [h]

/-- No command changes the build. -/
theorem exec_build {i : Instr} {s t : State} (h : exec i s = .next t) : t.build = s.build := by
  cases i with
  | nop => cases h; rfl
  | init | initDs => cases h; exact setStream_build ..
  | write | writei8 | writei16 | writei32 | writei64 | writei128 => cases h; exact foldChunk_build ..
  | hash | hashDs => cases h; exact hashChunk_build ..
  | finish | mum | mix | evolve => cases h; exact setResult_build ..
  | read32 | read64 => cases h; exact readResult_build ..
  | core => cases h; exact coreChunk_build ..

/-! ### Host accesses keep the build (R9) -/

@[simp] theorem accept_build (c : Word) (s : State) : (accept c s).build = s.build := by
  obtain ⟨_, h, -⟩ | ⟨-, -, h⟩ | ⟨-, -, _, -, -, h⟩ := accept_cases c s <;> simp [h]

@[simp] theorem hostWriteAt_build (off width : Nat) (v : Word) (s : State) :
    (hostWriteAt off width v s).build = s.build := by
  obtain h | h | h | ⟨-, -, _, -, h⟩ | ⟨-, -, h⟩ | ⟨-, -, h⟩ | ⟨-, -, _, -, -, h⟩ :=
    hostWriteAt_cases off width v s <;> simp [h]

@[simp] theorem hostReadAt_build (off width : Nat) (s : State) : (hostReadAt off width s).build = s.build := by
  obtain ⟨-, h⟩ | ⟨-, _, _, h⟩ := hostReadAt_cases off width s <;> simp [h]

/-! ### Steps keep the build, and the constant registers show it (R9, R22, R23, R36) -/

/-- No step changes the build. -/
theorem step_build {s t : State} (h : step s = .next t) : t.build = s.build := by
  obtain ⟨-, rfl⟩ | ⟨_, _, _, _, -, -, rfl⟩ | ⟨_, _, _, -, -, rfl⟩ | ⟨-, -, rfl⟩ |
    ⟨-, -, _, _, _, -, -, hexec, rfl⟩ | ⟨-, rfl⟩ := step_cases h
  · rfl
  · simp
  · simp
  · simp
  · simpa using exec_build hexec
  · simp

/-- The six constant registers read the same in any two states of one build. -/
theorem readReg_constant_congr {r : Reg} {s t : State} (hb : t.build = s.build)
    (hr : r ∈ [Reg.id, .param, .secret0, .secret1, .secret2, .dseed]) : readReg r t = readReg r s := by
  simp only [List.mem_cons, List.not_mem_nil, or_false] at hr
  obtain rfl | rfl | rfl | rfl | rfl | rfl := hr <;> simp only [readReg, hb]

/-- Settles O9: a step keeps the build, and the constant registers depend on the build only. -/
theorem stepKeepsTheConstants : Obligations.StepKeepsTheConstants :=
  fun _ _ h => ⟨step_build h, fun _ hr => readReg_constant_congr (step_build h) hr⟩

end Sys2Proof.Machine

/-! The statements of 10_state: the invariant of reachable states, the frozen operands of a busy block, STATUS and its fields BUSY, ERR, OVF and BAND (R25 to R30), the register map (R41), and undefined bytes (R34). -/

/-! ### The compression engine answers for every chunk (R163, R246): no reader leaves the chunk -/

namespace Sys2Proof.Machine

/-- A lane step answers where its 16 bytes lie in the chunk. -/
theorem laneStep_answers {c : Chunk} {q : Nat} (secret lane : Word) (h : q + 16 ≤ c.len) :
    ∃ x, laneStep c q secret lane = some x := by
  simp [laneStep, rd64_of_le (show q + 8 ≤ c.len by omega), rd64_of_le (show q + 8 + 8 ≤ c.len by omega)]

/-- Three lane steps answer where their 48 bytes lie in the chunk. -/
theorem round48_answers (bld : Build) {c : Chunk} {p : Nat} (l : Lanes) (h : p + 48 ≤ c.len) :
    ∃ l', round48 bld c p l = some l' := by
  obtain ⟨x, hx⟩ := laneStep_answers (c := c) (q := p) bld.secret0 l.seed (by omega)
  obtain ⟨y, hy⟩ := laneStep_answers (c := c) (q := p + 16) bld.secret1 l.see1 (by omega)
  obtain ⟨z, hz⟩ := laneStep_answers (c := c) (q := p + 32) bld.secret2 l.see2 (by omega)
  simp [round48, hx, hy, hz]

/-- A super-block answers where its 96 bytes lie in the chunk. -/
theorem superBlock_answers (bld : Build) {c : Chunk} {p : Nat} (l : Lanes) (h : p + 96 ≤ c.len) :
    ∃ l', superBlock bld c p l = some l' := by
  obtain ⟨half, hhalf⟩ := round48_answers bld (c := c) (p := p) l (by omega)
  obtain ⟨l', hl'⟩ := round48_answers bld (c := c) (p := p + 48) half (by omega)
  simp [superBlock, hhalf, hl']

/-- `q` super-blocks answer where their bytes lie in the chunk. -/
theorem bulkLoop_answers (bld : Build) {c : Chunk} (q : Nat) {p : Nat} (l : Lanes) (h : p + 96 * q ≤ c.len) :
    ∃ l', bulkLoop bld c q p l = some l' := by
  induction q generalizing p l with
  | zero => exact ⟨l, rfl⟩
  | succ q ih =>
    obtain ⟨next, hnext⟩ := superBlock_answers bld (c := c) (p := p) l (by omega)
    obtain ⟨l', hl'⟩ := ih (p := p + 96) next (by omega)
    exact ⟨l', by simp [bulkLoop, hnext, hl']⟩

/-- The bulk stage answers for every chunk. -/
theorem bulkStage_answers (bld : Build) (c : Chunk) (seed : Word) : ∃ x, bulkStage bld c seed = some x := by
  obtain ⟨l, hl⟩ := bulkLoop_answers bld (c := c) (c.len / 96) (p := 0) ⟨seed, seed, seed⟩ (by omega)
  unfold bulkStage
  split
  · split
    · obtain ⟨l', hl'⟩ := round48_answers bld (c := c) (p := 96 * (c.len / 96)) l (by omega)
      simp [hl, hl']
    · simp [hl]
  · exact ⟨seed, rfl⟩

/-- The tail rounds on `i` bytes from `p` on answer where those bytes lie in the chunk. -/
theorem tailRounds_answers (bld : Build) {c : Chunk} {p i : Nat} (seed : Word) (h : p + i ≤ c.len) :
    ∃ x, tailRounds bld c p i seed = some x := by
  unfold tailRounds
  split
  · have first : p + 8 ≤ c.len ∧ p + 8 + 8 ≤ c.len := by omega
    split
    · have second : p + 16 + 8 ≤ c.len ∧ p + 24 + 8 ≤ c.len := by omega
      simp [rd64_of_le first.1, rd64_of_le first.2, rd64_of_le second.1, rd64_of_le second.2]
    · simp [rd64_of_le first.1, rd64_of_le first.2]
  · exact ⟨seed, rfl⟩

/-- The bulk stage stops inside the chunk. -/
theorem bulkEnd_le (n : Nat) : bulkEnd n ≤ n := by
  unfold bulkEnd
  split <;> [split; skip] <;> omega

/-- Chunks of more than 16 bytes: every read lies in the chunk. -/
theorem longStep_answers (bld : Build) {c : Chunk} (a b seed : Word) (h : 16 < c.len) :
    ∃ r, longStep bld c a b seed = some r := by
  have hend := bulkEnd_le c.len
  obtain ⟨bulk, hbulk⟩ := bulkStage_answers bld c seed
  obtain ⟨x, hx⟩ :=
    tailRounds_answers bld (c := c) (p := bulkEnd c.len) (i := c.len - bulkEnd c.len) bulk (by omega)
  simp [longStep, hbulk, hx, rd64_of_le (show c.len - 16 + 8 ≤ c.len by omega),
    rd64_of_le (show c.len - 8 + 8 ≤ c.len by omega)]

/-- Band 1: the three bytes read lie in a chunk that is not empty. -/
theorem band1Word_answers {c : Chunk} (h : 0 < c.len) : ∃ x, band1Word c = some x := by
  simp [band1Word, rd8_of_lt h, rd8_of_lt (show c.len / 2 < c.len by omega),
    rd8_of_lt (show c.len - 1 < c.len by omega)]

/-- Bands 2 to 4: the four half words read lie in a chunk of 4 bytes or more. -/
theorem band234Words_answers {c : Chunk} (h : 4 ≤ c.len) : ∃ r, band234Words c = some r := by
  have hdelta : bandDelta c.len + 4 ≤ c.len := by
    unfold bandDelta
    split <;> omega
  simp [band234Words, rd32_of_le (show 0 + 4 ≤ c.len by omega), rd32_of_le (show c.len - 4 + 4 ≤ c.len by omega),
    rd32_of_le hdelta, rd32_of_le (show c.len - 4 - bandDelta c.len + 4 ≤ c.len by omega)]

/-- The short band step answers for every chunk. -/
theorem shortStep_answers (c : Chunk) (a b : Word) : ∃ r, shortStep c a b = some r := by
  unfold shortStep
  split
  · exact ⟨_, rfl⟩
  · split
    · obtain ⟨x, hx⟩ := band1Word_answers (c := c) (by omega)
      simp [hx]
    · obtain ⟨r, hr⟩ := band234Words_answers (c := c) (by omega)
      simp [hr]

/-- The engine answers for every chunk, so a fold never raises INTERNAL (R163). -/
theorem compress_answers (bld : Build) (c : Chunk) (a b seed : Word) :
    ∃ a' b' seed', compress bld c a b seed = some (a', b', seed') := by
  have hband : ∃ r, bandStep bld c a b seed = some r := by
    unfold bandStep
    split
    · obtain ⟨r, hr⟩ := shortStep_answers c a b
      simp [hr]
    · exact longStep_answers bld a b seed (by omega)
  obtain ⟨r, hr⟩ := hband
  exact ⟨_, _, _, by rw [compress, hr]; rfl⟩

end Sys2Proof.Machine

/-! ### What a completion does, once the engine is known to answer (R190, R202, R226, R281) -/

namespace Sys2Proof.Machine

/-- WRITE and WRITEI never raise INTERNAL: they fold. -/
theorem foldChunk_effect (c : Chunk) (s : State) : ∃ a b x,
    foldChunk c s = (((s.setStream x a b (sizeAfter c.len s)).setOvf (ovfAfter c.len s)).setBand c.len).noteRead
      c.hasUndefined := by
  obtain ⟨hnone, -⟩ | ⟨a, b, x, -, h⟩ := foldChunk_cases c s
  · obtain ⟨a, b, x, hsome⟩ :=
      compress_answers s.build c s.accA s.accB (evolveSeed s.build s.seed (sizeAfter c.len s))
    rw [hsome] at hnone
    cases hnone
  · exact ⟨a, b, x, h⟩

/-- HASH never raises INTERNAL: it gives a digest. -/
theorem hashChunk_effect (seed : Word) (c : Chunk) (s : State) : ∃ digest,
    hashChunk seed c s = ((s.setResult digest 0).setBand c.len).noteRead c.hasUndefined := by
  obtain ⟨hnone, -⟩ | ⟨a, b, x, -, h⟩ := hashChunk_cases seed c s
  · obtain ⟨a, b, x, hsome⟩ :=
      compress_answers s.build c 0 0 (evolveSeed s.build seed (BitVec.ofNat 64 c.len))
    rw [hsome] at hnone
    cases hnone
  · exact ⟨_, h⟩

/-- CORE never raises INTERNAL: it writes the engine's values. -/
theorem coreChunk_effect (c : Chunk) (s : State) : ∃ a b x,
    coreChunk c s = ((s.setStream x a b s.size).setBand c.len).noteRead c.hasUndefined := by
  obtain ⟨hnone, -⟩ | ⟨a, b, x, -, h⟩ := coreChunk_cases c s
  · obtain ⟨a, b, x, hsome⟩ := compress_answers s.build c s.accA s.accB s.seed
    rw [hsome] at hnone
    cases hnone
  · exact ⟨a, b, x, h⟩

/-! One field each of what the three operations leave. -/

@[simp] theorem foldChunk_err (c : Chunk) (s : State) : (foldChunk c s).err = s.err := by
  obtain ⟨_, _, _, h⟩ := foldChunk_effect c s; simp [h]
@[simp] theorem foldChunk_ovf (c : Chunk) (s : State) : (foldChunk c s).ovf = ovfAfter c.len s := by
  obtain ⟨_, _, _, h⟩ := foldChunk_effect c s; simp [h]
@[simp] theorem foldChunk_band (c : Chunk) (s : State) :
    (foldChunk c s).band = BitVec.ofNat 4 (bandClass c.len) := by
  obtain ⟨_, _, _, h⟩ := foldChunk_effect c s; simp [h]
@[simp] theorem foldChunk_ibuf (c : Chunk) (s : State) : (foldChunk c s).ibuf = s.ibuf := by
  obtain ⟨_, _, _, h⟩ := foldChunk_effect c s; simp [h]
@[simp] theorem foldChunk_modelFault (c : Chunk) (s : State) :
    (foldChunk c s).modelFault = if c.hasUndefined then some .ibufUndefined else s.modelFault := by
  obtain ⟨_, _, _, h⟩ := foldChunk_effect c s; simp [h]

@[simp] theorem hashChunk_err (seed : Word) (c : Chunk) (s : State) : (hashChunk seed c s).err = s.err := by
  obtain ⟨_, h⟩ := hashChunk_effect seed c s; simp [h]
@[simp] theorem hashChunk_ovf (seed : Word) (c : Chunk) (s : State) : (hashChunk seed c s).ovf = s.ovf := by
  obtain ⟨_, h⟩ := hashChunk_effect seed c s; simp [h]
@[simp] theorem hashChunk_band (seed : Word) (c : Chunk) (s : State) :
    (hashChunk seed c s).band = BitVec.ofNat 4 (bandClass c.len) := by
  obtain ⟨_, h⟩ := hashChunk_effect seed c s; simp [h]
@[simp] theorem hashChunk_ibuf (seed : Word) (c : Chunk) (s : State) : (hashChunk seed c s).ibuf = s.ibuf := by
  obtain ⟨_, h⟩ := hashChunk_effect seed c s; simp [h]
@[simp] theorem hashChunk_modelFault (seed : Word) (c : Chunk) (s : State) :
    (hashChunk seed c s).modelFault = if c.hasUndefined then some .ibufUndefined else s.modelFault := by
  obtain ⟨_, h⟩ := hashChunk_effect seed c s; simp [h]

@[simp] theorem coreChunk_err (c : Chunk) (s : State) : (coreChunk c s).err = s.err := by
  obtain ⟨_, _, _, h⟩ := coreChunk_effect c s; simp [h]
@[simp] theorem coreChunk_ovf (c : Chunk) (s : State) : (coreChunk c s).ovf = s.ovf := by
  obtain ⟨_, _, _, h⟩ := coreChunk_effect c s; simp [h]
@[simp] theorem coreChunk_band (c : Chunk) (s : State) :
    (coreChunk c s).band = BitVec.ofNat 4 (bandClass c.len) := by
  obtain ⟨_, _, _, h⟩ := coreChunk_effect c s; simp [h]
@[simp] theorem coreChunk_ibuf (c : Chunk) (s : State) : (coreChunk c s).ibuf = s.ibuf := by
  obtain ⟨_, _, _, h⟩ := coreChunk_effect c s; simp [h]
@[simp] theorem coreChunk_modelFault (c : Chunk) (s : State) :
    (coreChunk c s).modelFault = if c.hasUndefined then some .ibufUndefined else s.modelFault := by
  obtain ⟨_, _, _, h⟩ := coreChunk_effect c s; simp [h]

@[simp] theorem readResult_ovf (v : Option Word) (s : State) : (readResult v s).ovf = s.ovf := by
  obtain ⟨-, h⟩ | ⟨_, -, h⟩ := readResult_cases v s <;> simp [h]
@[simp] theorem readResult_band (v : Option Word) (s : State) : (readResult v s).band = s.band := by
  obtain ⟨-, h⟩ | ⟨_, -, h⟩ := readResult_cases v s <;> simp [h]
@[simp] theorem readResult_ibuf (v : Option Word) (s : State) : (readResult v s).ibuf = s.ibuf := by
  obtain ⟨-, h⟩ | ⟨_, -, h⟩ := readResult_cases v s <;> simp [h]

/-- READ32 and READ64 leave ERR alone, or raise INTERNAL where their reader does not answer. -/
theorem readResult_err (v : Option Word) (s : State) :
    (readResult v s).err = if v.isSome then s.err else (s.raise .internal).err := by
  obtain ⟨rfl, h⟩ | ⟨_, rfl, h⟩ := readResult_cases v s <;> simp [h]

/-! ### Everything a command can do (R96) -/

/-- The commands that fold a chunk into the stream, each with the number of bytes it folds (R202, R205). -/
def foldLengths (s : State) : List (Instr × Nat) :=
  [(.write, s.chunkLen.toNat), (.writei8, 1), (.writei16, 2), (.writei32, 4), (.writei64, 8), (.writei128, 16)]

/-- A folding command folds a chunk of its length. -/
theorem exec_of_mem_foldLengths {i : Instr} {n : Nat} {s : State} (h : (i, n) ∈ foldLengths s) :
    ∃ c : Chunk, c.len = n ∧ exec i s = .next (foldChunk c s) := by
  simp only [foldLengths, List.mem_cons, Prod.mk.injEq, List.not_mem_nil, or_false] at h
  obtain ⟨rfl, rfl⟩ | ⟨rfl, rfl⟩ | ⟨rfl, rfl⟩ | ⟨rfl, rfl⟩ | ⟨rfl, rfl⟩ | ⟨rfl, rfl⟩ := h
  · exact ⟨_, chunkOf_len s, rfl⟩
  all_goals exact ⟨_, integerChunk_len _ s, rfl⟩

/-- Everything a command can do: nothing, start a stream, fold, hash, run the core, write a result, or read. -/
theorem exec_cases {i : Instr} {s t : State} (h : exec i s = .next t) :
    t = s ∨
    (∃ seed, t = startStream seed s) ∨
    (∃ c : Chunk, (i, c.len) ∈ foldLengths s ∧ t = foldChunk c s) ∨
    (i ∈ [Instr.hash, .hashDs] ∧ ∃ seed, t = hashChunk seed (chunkOf s) s) ∨
    (i = .core ∧ t = coreChunk (chunkOf s) s) ∨
    (∃ x y, t = s.setResult x y) ∨
    (∃ v, (operandCheck i s = none → v.isSome = true) ∧ t = readResult v s) := by
  cases i with
  | nop => cases h; exact .inl rfl
  | init | initDs => cases h; exact .inr (.inl ⟨_, rfl⟩)
  | write | writei8 | writei16 | writei32 | writei64 | writei128 =>
    cases h
    exact .inr (.inr (.inl ⟨_, by simp [foldLengths, integerBytes], rfl⟩))
  | hash | hashDs => cases h; exact .inr (.inr (.inr (.inl ⟨by simp, _, rfl⟩)))
  | core => cases h; exact .inr (.inr (.inr (.inr (.inl ⟨rfl, rfl⟩))))
  | finish | mum | mix | evolve => cases h; exact .inr (.inr (.inr (.inr (.inr (.inl ⟨_, _, rfl⟩)))))
  | read32 =>
    cases h
    refine .inr (.inr (.inr (.inr (.inr (.inr ⟨_, fun hc => ?_, rfl⟩)))))
    have hbound : s.arg0.toNat + 4 ≤ (chunkOf s).len := by
      simpa [readWidth] using (operandCheck_eq_none.1 hc).2
    simp [rd32_of_le hbound]
  | read64 =>
    cases h
    refine .inr (.inr (.inr (.inr (.inr (.inr ⟨_, fun hc => ?_, rfl⟩)))))
    have hbound : s.arg0.toNat + 8 ≤ (chunkOf s).len := by
      simpa [readWidth] using (operandCheck_eq_none.1 hc).2
    simp [rd64_of_le hbound]

/-- `raise` changes ERR, if at all, from 0 to its code. -/
theorem raise_err_cases (e : ErrorCode) (s : State) :
    (s.raise e).err = s.err ∨ (s.err = 0 ∧ (s.raise e).err = e.code) := by
  by_cases he : s.err = 0
  · exact .inr ⟨he, by rw [raise_err, if_pos he]⟩
  · exact .inl (by rw [raise_err, if_neg he])

/-- A command changes ERR, if at all, from 0 to INTERNAL. -/
theorem exec_err_cases {i : Instr} {s t : State} (h : exec i s = .next t) :
    t.err = s.err ∨ (s.err = 0 ∧ t.err = ErrorCode.internal.code) := by
  obtain rfl | ⟨_, rfl⟩ | ⟨_, -, rfl⟩ | ⟨-, _, rfl⟩ | ⟨-, rfl⟩ | ⟨_, _, rfl⟩ | ⟨v, -, rfl⟩ := exec_cases h
  · exact .inl rfl
  · exact .inl (setStream_err ..)
  · exact .inl (foldChunk_err ..)
  · exact .inl (hashChunk_err ..)
  · exact .inl (coreChunk_err ..)
  · exact .inl (setResult_err ..)
  · rw [readResult_err]
    split
    · exact .inl rfl
    · exact raise_err_cases .internal s

/-- A command whose operand checks hold raises no error (R246). -/
theorem exec_err {i : Instr} {s t : State} (h : exec i s = .next t) (hc : operandCheck i s = none) :
    t.err = s.err := by
  obtain rfl | ⟨_, rfl⟩ | ⟨_, -, rfl⟩ | ⟨-, _, rfl⟩ | ⟨-, rfl⟩ | ⟨_, _, rfl⟩ | ⟨v, hv, rfl⟩ := exec_cases h
  · rfl
  · exact setStream_err ..
  · exact foldChunk_err ..
  · exact hashChunk_err ..
  · exact coreChunk_err ..
  · exact setResult_err ..
  · simp [readResult_err, hv hc]

/-- No command writes IBUF. -/
theorem exec_ibuf {i : Instr} {s t : State} (h : exec i s = .next t) : t.ibuf = s.ibuf := by
  obtain rfl | ⟨_, rfl⟩ | ⟨_, -, rfl⟩ | ⟨-, _, rfl⟩ | ⟨-, rfl⟩ | ⟨_, _, rfl⟩ | ⟨v, -, rfl⟩ := exec_cases h
  · rfl
  · exact setStream_ibuf ..
  · exact foldChunk_ibuf ..
  · exact hashChunk_ibuf ..
  · exact coreChunk_ibuf ..
  · exact setResult_ibuf ..
  · exact readResult_ibuf ..

/-- A command changes OVF only where it folds a chunk (R28). -/
theorem exec_ovf_cases {i : Instr} {s t : State} (h : exec i s = .next t) :
    t.ovf = s.ovf ∨ ∃ n, (i, n) ∈ foldLengths s ∧ t.ovf = ovfAfter n s := by
  obtain rfl | ⟨_, rfl⟩ | ⟨c, hi, rfl⟩ | ⟨-, _, rfl⟩ | ⟨-, rfl⟩ | ⟨_, _, rfl⟩ | ⟨v, -, rfl⟩ := exec_cases h
  · exact .inl rfl
  · exact .inl (setStream_ovf ..)
  · exact .inr ⟨c.len, hi, foldChunk_ovf c s⟩
  · exact .inl (hashChunk_ovf ..)
  · exact .inl (coreChunk_ovf ..)
  · exact .inl (setResult_ovf ..)
  · exact .inl (readResult_ovf ..)

/-- The commands that run the core, each with the number of bytes it folds (R30). -/
def coreLengths (s : State) : List (Instr × Nat) :=
  [(.write, s.chunkLen.toNat), (.hash, s.chunkLen.toNat), (.hashDs, s.chunkLen.toNat), (.core, s.chunkLen.toNat),
    (.writei8, 1), (.writei16, 2), (.writei32, 4), (.writei64, 8), (.writei128, 16)]

/-- Every folding command runs the core, on the bytes it folds. -/
theorem foldLengths_subset_coreLengths (s : State) : foldLengths s ⊆ coreLengths s := by
  simp [foldLengths, coreLengths]

/-- A command changes BAND only where it runs the core (R30). -/
theorem exec_band_cases {i : Instr} {s t : State} (h : exec i s = .next t) :
    t.band = s.band ∨ ∃ n, (i, n) ∈ coreLengths s ∧ t.band = BitVec.ofNat 4 (bandClass n) := by
  obtain rfl | ⟨_, rfl⟩ | ⟨c, hi, rfl⟩ | ⟨hi, _, rfl⟩ | ⟨rfl, rfl⟩ | ⟨_, _, rfl⟩ | ⟨v, -, rfl⟩ := exec_cases h
  · exact .inl rfl
  · exact .inl (setStream_band ..)
  · exact .inr ⟨c.len, foldLengths_subset_coreLengths s hi, foldChunk_band c s⟩
  · refine .inr ⟨(chunkOf s).len, ?_, hashChunk_band ..⟩
    simp only [List.mem_cons, List.not_mem_nil, or_false] at hi
    obtain rfl | rfl := hi <;> simp [coreLengths]
  · exact .inr ⟨(chunkOf s).len, by simp [coreLengths], coreChunk_band ..⟩
  · exact .inl (setResult_band ..)
  · exact .inl (readResult_band ..)

/-- The class of a length is at most 8 (R30, R162). -/
theorem bandClass_le (n : Nat) : bandClass n ≤ 8 := by
  unfold bandClass
  split_ifs <;> decide

/-- BAND holds every class. -/
@[simp] theorem toNat_bandClass (n : Nat) : (BitVec.ofNat 4 (bandClass n)).toNat = bandClass n := by
  have := bandClass_le n
  rw [BitVec.toNat_ofNat, Nat.mod_eq_of_lt (by omega)]

/-- A command keeps BAND at most 8. -/
theorem exec_band_le {i : Instr} {s t : State} (h : exec i s = .next t) (hs : s.band.toNat ≤ 8) :
    t.band.toNat ≤ 8 := by
  obtain hb | ⟨n, -, hb⟩ := exec_band_cases h
  · rwa [hb]
  · rw [hb, toNat_bandClass]
    exact bandClass_le n

end Sys2Proof.Machine

/-! ### Accesses to the register window by offset (R41, R67, R282) -/

namespace Sys2Proof.Machine

/-- Every register lies in the register window, at a multiple of 8. -/
theorem regAt_aligned {off : Nat} {r : Reg} (h : regAt off = some r) : off < 0x1000 ∧ off % 8 = 0 := by
  unfold regAt at h
  split at h <;> simp at h ⊢

/-- CMD is at offset 0x010 only. -/
theorem off_of_regAt_cmd {off : Nat} (h : regAt off = some .cmd) : off = 0x010 := by
  unfold regAt at h
  split at h <;> simp at h ⊢

/-- STATUS is at offset 0x018 only. -/
theorem off_of_regAt_status {off : Nat} (h : regAt off = some .status) : off = 0x018 := by
  unfold regAt at h
  split at h <;> simp at h ⊢

/-- A legal access to a register is 8 bytes wide (R67). -/
theorem width_of_regAt {off width : Nat} {r : Reg} (hr : regAt off = some r) (hb : badAccess off width = false) :
    width = 8 := by
  have hoff := (regAt_aligned hr).1
  simp only [badAccess, Bool.or_eq_false_iff, Bool.and_eq_false_iff, decide_eq_false_iff_not, bne_eq_false_iff_eq] at hb
  obtain ⟨-, h | h⟩ := hb
  · exact absurd hoff h
  · exact h

/-- An access of 8 bytes to a register is legal. -/
theorem badAccess_regAt {off : Nat} {r : Reg} (h : regAt off = some r) : badAccess off 8 = false := by
  simp [badAccess, (regAt_aligned h).2]

/-- No register lies in the IBUF window. -/
theorem ibufIndex_regAt (bld : Build) {off : Nat} {r : Reg} (h : regAt off = some r) : ibufIndex bld off = none := by
  have := (regAt_aligned h).1
  exact if_neg (by omega)

/-- A write of 8 bytes at a register's offset. -/
theorem hostWriteAt_regAt {off : Nat} {r : Reg} (h : regAt off = some r) (v : Word) (s : State) :
    hostWriteAt off 8 v s = writeRegister off v s := by
  simp [hostWriteAt, badAccess_regAt h, ibufIndex_regAt s.build h]

/-- A read of 8 bytes at a register's offset. -/
theorem hostReadAt_regAt {off : Nat} {r : Reg} (h : regAt off = some r) (s : State) :
    hostReadAt off 8 s = readRegister r s := by
  simp [hostReadAt, badAccess_regAt h, ibufIndex_regAt s.build h, h]

/-- A STATUS write is honoured in every state (R25). -/
@[simp] theorem hostWriteAt_status (v : Word) (s : State) : hostWriteAt 0x018 8 v s = statusWrite v s :=
  hostWriteAt_regAt (r := .status) rfl v s

/-- While busy, a CMD write is rejected (R243). -/
theorem accept_of_exec (c : Word) {s : State} (h : s.fsm = .exec) : accept c s = s.raise .busyAccess := by
  simp [accept, h]

/-! ### Host accesses leave the pending command its inputs while busy (R37, R75, R283) -/

/-- The two states agree on the build, the FSM, the latch and every input of the pending command. -/
structure State.SameInputs (s t : State) : Prop where
  build : t.build = s.build
  fsm : t.fsm = s.fsm
  pend : t.pend = s.pend
  seed : t.seed = s.seed
  accA : t.accA = s.accA
  accB : t.accB = s.accB
  size : t.size = s.size
  arg0 : t.arg0 = s.arg0
  arg1 : t.arg1 = s.arg1
  chunkOff : t.chunkOff = s.chunkOff
  chunkLen : t.chunkLen = s.chunkLen
  ibuf : t.ibuf = s.ibuf

theorem sameInputs_refl (s : State) : s.SameInputs s := by constructor <;> rfl

theorem sameInputs_raise (e : ErrorCode) (s : State) : s.SameInputs (s.raise e) := by constructor <;> rfl

theorem sameInputs_statusWrite (v : Word) (s : State) : s.SameInputs (statusWrite v s) := by constructor <;> simp

/-- Passing on to the next move keeps the inputs. -/
theorem State.SameInputs.popMove {s t : State} (h : s.SameInputs t) : s.SameInputs t.popMove :=
  { h with }

/-- A host read never changes an input. -/
theorem sameInputs_hostReadAt (off width : Nat) (s : State) : s.SameInputs (hostReadAt off width s) := by
  obtain ⟨-, h⟩ | ⟨-, _, _, h⟩ := hostReadAt_cases off width s <;> rw [h] <;> constructor <;> rfl

/-- While busy, a host write changes no input: it is dropped, rejected, or a STATUS write. -/
theorem sameInputs_hostWriteAt (off width : Nat) (v : Word) {s : State} (hs : s.fsm = .exec) :
    s.SameInputs (hostWriteAt off width v s) := by
  have notIdle : s.fsm ≠ .idle := by simp [hs]
  obtain h | h | h | ⟨-, hidle, -⟩ | ⟨-, -, h⟩ | ⟨-, -, h⟩ | ⟨-, hidle, -⟩ := hostWriteAt_cases off width v s
  · rw [h]; exact sameInputs_refl s
  · rw [h]; exact sameInputs_raise _ s
  · rw [h]; exact sameInputs_raise _ s
  · exact absurd hidle notIdle
  · rw [h, accept_of_exec v hs]; exact sameInputs_raise _ s
  · rw [h]; exact sameInputs_statusWrite v s
  · exact absurd hidle notIdle

/-- A step of a busy block that is neither a completion nor a reset changes no input. -/
theorem step_sameInputs {s t : State} {m : Move} (hs : s.fsm = .exec) (hm : nextMove s = some m)
    (hcomplete : m ≠ .complete) (hreset : m ≠ .reset) (h : step s = .next t) : s.SameInputs t := by
  obtain ⟨-, rfl⟩ | ⟨_, _, _, _, -, -, rfl⟩ | ⟨_, _, _, -, -, rfl⟩ | ⟨hc, -⟩ | ⟨hc, -⟩ | ⟨hr, -⟩ := step_cases h
  · exact sameInputs_refl _
  · exact (sameInputs_hostWriteAt _ _ _ hs).popMove
  · exact (sameInputs_hostReadAt _ _ s).popMove
  · exact absurd (Option.some.inj (hm.symm.trans hc)) hcomplete
  · exact absurd (Option.some.inj (hm.symm.trans hc)) hcomplete
  · exact absurd (Option.some.inj (hm.symm.trans hr)) hreset

/-- Settles O11: the frame of a busy block's host accesses, field by field. -/
theorem operandsAreFrozenWhileBusy : Obligations.OperandsAreFrozenWhileBusy := by
  intro s t m hs hm hcomplete hreset hstep
  have h := step_sameInputs hs hm hcomplete hreset hstep
  exact ⟨h.fsm.trans hs, h.pend, h.seed, h.accA, h.accB, h.size, h.arg0, h.arg1, h.chunkOff, h.chunkLen, h.ibuf⟩

/-! ### A legal access stays inside IBUF (R9, R67) -/

/-- The size of IBUF is a multiple of 8 on every build that meets R9. -/
theorem eight_dvd_bufBytes {bld : Build} (h : bld.wf = true) : 8 ∣ bld.bufBytes := by
  simp only [Build.wf, Build.bufPowerOfTwo, Build.bufInRange, Bool.and_eq_true, beq_iff_eq, decide_eq_true_eq] at h
  obtain ⟨⟨-, hpow⟩, hlow, -⟩ := h
  have hlog : 3 ≤ Nat.log2 bld.bufBytes := (Nat.le_log2 (by omega)).2 (by omega)
  rw [hpow]
  exact Nat.pow_dvd_pow 2 hlog

/-- The widths of a legal access, which is naturally aligned (R67). -/
theorem width_of_legal {off width : Nat} (h : badAccess off width = false) :
    (width = 1 ∨ width = 2 ∨ width = 4 ∨ width = 8) ∧ off % width = 0 := by
  simp only [badAccess, Bool.or_eq_false_iff, Bool.not_eq_false', bne_eq_false_iff_eq, List.contains_eq_mem,
    decide_eq_true_eq, List.mem_cons, List.not_mem_nil, or_false] at h
  exact h.1

/-- A legal access that starts in IBUF ends in it. -/
theorem legal_access_within_ibuf {bld : Build} {off width k : Nat} (hbld : bld.wf = true)
    (hb : badAccess off width = false) (hk : ibufIndex bld off = some k) : k + width ≤ bld.bufBytes := by
  have h8 := eight_dvd_bufBytes hbld
  obtain ⟨hwidth, haligned⟩ := width_of_legal hb
  unfold ibufIndex at hk
  split at hk
  · simp only [Option.some.injEq] at hk
    obtain rfl | rfl | rfl | rfl := hwidth <;> omega
  · cases hk

/-! ### The invariant, operation by operation (Safety) -/

/-- ERR holds 0 or a code that is raised: `State.Inv.err` of a state with this ERR. -/
def errLegal (e : BitVec 4) : Prop := e = 0 ∨ e = 1 ∨ e = 2 ∨ e = 3 ∨ e = 4 ∨ e = 6

theorem errLegal_of_inv {s : State} (h : s.Inv) : errLegal s.err := h.err

/-- Every error but INTERNAL keeps ERR legal. -/
theorem errLegal_raise {e : ErrorCode} {s : State} (h : errLegal s.err) (he : e ≠ .internal) :
    errLegal (s.raise e).err := by
  obtain hkeep | ⟨-, hcode⟩ := raise_err_cases e s
  · rwa [hkeep]
  · rw [hcode]
    cases e with
    | internal => exact absurd rfl he
    | illegalCmd | chunkRange | readBounds | busyAccess | badAccess => simp [errLegal, ErrorCode.code]

/-- The invariant of a state with the inputs of one that meets it. -/
theorem State.Inv.of_sameInputs {s t : State} (h : s.Inv) (hst : s.SameInputs t) (herr : errLegal t.err)
    (hband : t.band = s.band) : t.Inv where
  build := by rw [hst.build]; exact h.build
  latch := by rw [hst.fsm, hst.pend]; exact h.latch
  pending c hc := by
    rw [hst.pend] at hc
    obtain ⟨i, hd, hi⟩ := h.pending c hc
    exact ⟨i, hd, (operandCheck_congr hst.build hst.chunkOff hst.chunkLen hst.arg0).trans hi⟩
  err := herr
  band := by rw [hband]; exact h.band
  ibuf := by rw [hst.build, hst.ibuf]; exact h.ibuf

/-- The invariant of an idle state: nothing is asked of the latch but that it is empty. -/
theorem State.Inv.of_idle {t : State} (hbuild : t.build.wf = true) (hfsm : t.fsm = .idle) (hpend : t.pend = none)
    (herr : errLegal t.err) (hband : t.band.toNat ≤ 8) (hibuf : memWf t.build.bufBytes t.ibuf = true) : t.Inv where
  build := hbuild
  latch := by simp [hfsm, hpend]
  pending c hc := by simp [hpend] at hc
  err := herr
  band := hband
  ibuf := hibuf

/-- An idle block that meets the invariant has an empty latch. -/
theorem State.Inv.pend_of_idle {s : State} (h : s.Inv) (hs : s.fsm = .idle) : s.pend = none := by
  have := h.latch
  simpa [hs] using this

/-- Passing on to the next move keeps the invariant. -/
theorem inv_popMove {s : State} (h : s.Inv) : s.popMove.Inv :=
  h.of_sameInputs (sameInputs_refl s).popMove h.err rfl

/-- Every error but INTERNAL keeps the invariant. -/
theorem inv_raise {s : State} (h : s.Inv) {e : ErrorCode} (he : e ≠ .internal) : (s.raise e).Inv :=
  h.of_sameInputs (sameInputs_raise e s) (errLegal_raise h.err he) rfl

/-- A STATUS write keeps the invariant. -/
theorem inv_statusWrite {s : State} (h : s.Inv) (v : Word) : (statusWrite v s).Inv := by
  refine h.of_sameInputs (sameInputs_statusWrite v s) ?_ (by simp)
  rw [statusWrite_err]
  split
  · exact .inl rfl
  · exact h.err

/-- Latching a command that passed the checks of acceptance keeps the invariant. -/
theorem inv_latch_admitted {s : State} (h : s.Inv) {c : Word} {i : Instr} (hd : decode c = .ok i)
    (hi : operandCheck i s = none) : (s.latch c).Inv where
  build := h.build
  latch := by simp
  pending c' hc' := by
    cases hc'
    exact ⟨i, hd, (operandCheck_congr (t := s.latch c) rfl rfl rfl rfl).trans hi⟩
  err := h.err
  band := h.band
  ibuf := h.ibuf

/-- Acceptance keeps the invariant. -/
theorem inv_accept {s : State} (h : s.Inv) (c : Word) : (accept c s).Inv := by
  obtain ⟨e, heq, he, -⟩ | ⟨-, -, heq⟩ | ⟨-, -, i, hd, hi, heq⟩ := accept_cases c s <;> rw [heq]
  · exact inv_raise h he
  · exact h
  · exact inv_latch_admitted h hd hi

/-- A host write keeps the invariant. -/
theorem inv_hostWriteAt {s : State} (h : s.Inv) (off width : Nat) (v : Word) :
    (hostWriteAt off width v s).Inv := by
  obtain heq | heq | heq | ⟨hb, hidle, k, hk, heq⟩ | ⟨-, -, heq⟩ | ⟨-, -, heq⟩ | ⟨-, hidle, r, -, -, heq⟩ :=
    hostWriteAt_cases off width v s <;> rw [heq]
  · exact h
  · exact inv_raise h (by decide)
  · exact inv_raise h (by decide)
  · have hlen : k + (leBytes v width).length ≤ s.build.bufBytes := by
      simpa [leBytes] using legal_access_within_ibuf h.build hb hk
    exact .of_idle h.build hidle (h.pend_of_idle hidle) h.err h.band (memSetBytes_wf h.ibuf hlen)
  · exact inv_accept h v
  · exact inv_statusWrite h v
  · exact .of_idle (by simpa using h.build) (by simpa using hidle) (by simpa using h.pend_of_idle hidle)
      (by simpa using (errLegal_of_inv h)) (by simpa using h.band) (by simpa using h.ibuf)

/-- A host read keeps the invariant. -/
theorem inv_hostReadAt {s : State} (h : s.Inv) (off width : Nat) : (hostReadAt off width s).Inv := by
  obtain ⟨-, heq⟩ | ⟨-, _, _, heq⟩ := hostReadAt_cases off width s
  · refine h.of_sameInputs (sameInputs_hostReadAt off width s) ?_ (by rw [heq]; rfl)
    rw [heq]
    exact errLegal_raise h.err (by decide)
  · exact h.of_sameInputs (sameInputs_hostReadAt off width s) (by rw [heq]; exact h.err) (by rw [heq]; rfl)

/-- The completion of an admitted command keeps the invariant. -/
theorem inv_complete {s u : State} (h : s.Inv) {c : Word} {i : Instr} (hp : s.pend = some c)
    (hd : decode c = .ok i) (hexec : exec i s = .next u) : u.retire.Inv := by
  obtain ⟨j, hj, hcheck⟩ := h.pending c hp
  cases hd.symm.trans hj
  have hbuild := exec_build hexec
  exact .of_idle (by simpa [hbuild] using h.build) rfl rfl (by simpa [exec_err hexec hcheck] using (errLegal_of_inv h))
    (by simpa using exec_band_le hexec h.band) (by simpa [hbuild, exec_ibuf hexec] using h.ibuf)

/-- Reset establishes the invariant on every build that meets R9. -/
theorem inv_resetAll {s : State} (h : s.Inv) : s.resetAll.Inv :=
  .of_idle h.build rfl rfl (.inl rfl) (Nat.zero_le _) (memWf_nil _)

/-- Settles O7: each kind of step keeps the invariant. -/
theorem stepKeepsTheInvariant : Obligations.StepKeepsTheInvariant := by
  intro s t h hstep
  obtain ⟨-, rfl⟩ | ⟨_, _, _, _, -, -, rfl⟩ | ⟨_, _, _, -, -, rfl⟩ | ⟨-, -, rfl⟩ |
    ⟨-, -, _, _, _, hp, hd, hexec, rfl⟩ | ⟨-, rfl⟩ := step_cases hstep
  · exact h
  · exact inv_popMove (inv_hostWriteAt h _ _ _)
  · exact inv_popMove (inv_hostReadAt h _ _)
  · exact inv_popMove h
  · exact inv_popMove (inv_complete h hp hd hexec)
  · exact inv_popMove (inv_resetAll h)

end Sys2Proof.Machine

/-! ### STATUS: its fields, and what changes them (R25 to R30) -/

namespace Sys2Proof.Machine

section StatusWord
variable (isBusy isOvf : Bool) (err band : BitVec 4)

@[simp] theorem statusWord_bit0 : (statusWord isBusy isOvf err band)[0] = isBusy := by
  simp [statusWord]
@[simp] theorem statusWord_bit1 : (statusWord isBusy isOvf err band)[1] = isOvf := by
  simp [statusWord]
@[simp] theorem statusWord_bit2 : (statusWord isBusy isOvf err band)[2] = false := by
  simp [statusWord]
@[simp] theorem statusWord_bit3 : (statusWord isBusy isOvf err band)[3] = false := by
  simp [statusWord]

@[simp] theorem statusWord_err : (statusWord isBusy isOvf err band).extractLsb' 4 4 = err := by
  ext i hi
  simp [statusWord, show 4 + i < 64 by omega, show 4 + i < 8 by omega,
    BitVec.getLsbD_eq_getElem hi]

@[simp] theorem statusWord_band : (statusWord isBusy isOvf err band).extractLsb' 8 4 = band := by
  ext i hi
  simp [statusWord, show 8 + i < 64 by omega, BitVec.getLsbD_eq_getElem hi,
    BitVec.getLsbD_of_ge err (8 + i - 4) (by omega)]

@[simp] theorem statusWord_reserved : (statusWord isBusy isOvf err band).extractLsb' 12 52 = 0 := by
  ext i hi
  simp [statusWord, BitVec.getLsbD_of_ge err (12 + i - 4) (by omega),
    BitVec.getLsbD_of_ge band (12 + i - 8) (by omega)]

end StatusWord

/-- BUSY is 1 exactly in EXEC (R21). -/
@[simp] theorem busy_eq_true {s : State} : busy s = true ↔ s.fsm = .exec := decide_eq_true_iff

/-- The FSM has two states. -/
theorem fsm_eq_idle_of_ne_exec {s : State} (h : s.fsm ≠ .exec) : s.fsm = .idle := by
  cases hs : s.fsm with
  | idle => rfl
  | exec => exact absurd hs h

/-- A STATUS write has its two effects and no other (R25). -/
theorem statusWrite_eq (v : Word) (s : State) : statusWrite v s =
    { s with ovf := s.ovf && !v.getLsbD 1, err := if v.getLsbD 3 then 0 else s.err } := by
  unfold statusWrite
  split <;> simp [State.clearErr, *]

/-- A read of any register of an idle block gives its value (R282). -/
theorem readRegister_of_idle (r : Reg) {s : State} (h : s.fsm = .idle) : readRegister r s = s.give (readReg r s) := by
  simp [readRegister, h]

/-- A read of STATUS while busy gives BUSY and ERR exactly and takes a draw (R284). -/
theorem readRegister_status_of_exec {s : State} (h : s.fsm = .exec) :
    readRegister .status s = (s.give (statusDrawn s)).drawIf true := by
  simp [readRegister, h]

/-- Settles O25: idle reads give `statusOf`, busy ones `statusDrawn`, and both are status words. -/
theorem statusFieldsAndWriteEffect : Obligations.StatusFieldsAndWriteEffect := by
  refine ⟨by decide, fun s => ?_, fun s w => (hostWriteAt_status w s).trans (statusWrite_eq w s)⟩
  rw [hostReadAt_regAt (r := .status) rfl]
  by_cases hs : s.fsm = .exec
  · refine ⟨statusDrawn s, s.draws + 1, readRegister_status_of_exec hs, ?_⟩
    simp [statusDrawn, hs]
  · have hidle := fsm_eq_idle_of_ne_exec hs
    refine ⟨statusOf s, s.draws, readRegister_of_idle .status hidle, ?_⟩
    simp [statusOf]

/-! ### The register map of an idle block (R41, R282) -/

/-- The registers of R41 but STATUS, by offset. -/
def plainRegisters : List (Nat × Reg) :=
  [(0x000, .id), (0x008, .param), (0x010, .cmd), (0x020, .seed), (0x028, .accA), (0x030, .accB), (0x038, .size),
    (0x040, .arg0), (0x048, .arg1), (0x050, .chunkOff), (0x058, .chunkLen), (0x060, .res0), (0x068, .res1),
    (0x070, .secret0), (0x078, .secret1), (0x080, .secret2), (0x088, .dseed)]

/-- The registers that ignore every write (R41). -/
def readOnlyRegisters : List (Nat × Reg) :=
  [(0x000, .id), (0x008, .param), (0x060, .res0), (0x068, .res1),
    (0x070, .secret0), (0x078, .secret1), (0x080, .secret2), (0x088, .dseed)]

theorem regAt_of_mem_plainRegisters : ∀ p ∈ plainRegisters, regAt p.1 = some p.2 := by decide

theorem regAt_of_mem_readOnlyRegisters : ∀ p ∈ readOnlyRegisters,
    regAt p.1 = some p.2 ∧ hostWritable p.2 = false ∧ p.2 ≠ .cmd ∧ p.2 ≠ .status := by decide

/-- A write to a read/write register of an idle block sets it (R282). -/
theorem hostWriteAt_of_writable {off : Nat} {r : Reg} (hr : regAt off = some r) (hw : hostWritable r = true)
    (v : Word) {s : State} (hs : s.fsm = .idle) : hostWriteAt off 8 v s = s.writeReg r v := by
  rw [hostWriteAt_regAt hr, writeRegister, hr]
  cases r <;> simp_all [hostWritable]

/-- A read-only register ignores writes (R282). -/
theorem hostWriteAt_of_readOnly {off : Nat} {r : Reg} (hr : regAt off = some r) (hw : hostWritable r = false)
    (hcmd : r ≠ .cmd) (hstatus : r ≠ .status) (v : Word) (s : State) : hostWriteAt off 8 v s = s := by
  rw [hostWriteAt_regAt hr, writeRegister, hr]
  cases r <;> simp_all [hostWritable]

/-- Settles O26: the register map, read row by row and written register by register. -/
theorem registerMapReadsAndWrites : Obligations.RegisterMapReadsAndWrites := by
  intro s v hs
  have reads : ∀ p ∈ plainRegisters.map (fun q => (q.1, readReg q.2 s)), hostReadAt p.1 8 s = s.give p.2 :=
    List.forall_mem_map.2 fun q hq => by
      rw [hostReadAt_regAt (regAt_of_mem_plainRegisters q hq), readRegister_of_idle q.2 hs]
  have readOnly : ∀ off ∈ readOnlyRegisters.map Prod.fst, hostWriteAt off 8 v s = s :=
    List.forall_mem_map.2 fun q hq => by
      obtain ⟨hr, hw, hcmd, hstatus⟩ := regAt_of_mem_readOnlyRegisters q hq
      exact hostWriteAt_of_readOnly hr hw hcmd hstatus v s
  exact ⟨reads, hostWriteAt_of_writable (r := .seed) rfl rfl v hs, hostWriteAt_of_writable (r := .accA) rfl rfl v hs,
    hostWriteAt_of_writable (r := .accB) rfl rfl v hs, hostWriteAt_of_writable (r := .size) rfl rfl v hs,
    hostWriteAt_of_writable (r := .arg0) rfl rfl v hs, hostWriteAt_of_writable (r := .arg1) rfl rfl v hs,
    hostWriteAt_of_writable (r := .chunkOff) rfl rfl v hs, hostWriteAt_of_writable (r := .chunkLen) rfl rfl v hs,
    readOnly⟩

/-! ### BUSY (R26) -/

/-- A host write keeps the FSM, unless it is an accepted CMD write (R243). -/
theorem hostWriteAt_fsm_cases (off width : Nat) (v : Word) (s : State) :
    (hostWriteAt off width v s).fsm = s.fsm ∨
    (off = 0x010 ∧ width = 8 ∧ s.err = 0 ∧ (∃ i, decode v = .ok i ∧ operandCheck i s = none) ∧
      hostWriteAt off width v s = s.latch v) := by
  obtain heq | heq | heq | ⟨-, -, k, -, heq⟩ | ⟨hb, hr, heq⟩ | ⟨-, -, heq⟩ | ⟨-, -, r, -, -, heq⟩ :=
    hostWriteAt_cases off width v s
  · exact .inl (by rw [heq])
  · exact .inl (by rw [heq, raise_fsm])
  · exact .inl (by rw [heq, raise_fsm])
  · exact .inl (by rw [heq, storeBytes_fsm])
  · obtain ⟨e, hacc, -⟩ | ⟨-, -, hacc⟩ | ⟨-, herr, i, hd, hi, hacc⟩ := accept_cases v s
    · exact .inl (by rw [heq, hacc, raise_fsm])
    · exact .inl (by rw [heq, hacc])
    · exact .inr ⟨off_of_regAt_cmd hr, width_of_regAt hr hb, herr, ⟨i, hd, hi⟩, heq.trans hacc⟩
  · exact .inl (by rw [heq, statusWrite_fsm])
  · exact .inl (by rw [heq, writeReg_fsm])

/-- A step from IDLE to EXEC is an accepted CMD write. -/
theorem step_starts_exec {s t : State} (hstep : step s = .next t) (hs : s.fsm = .idle) (ht : t.fsm = .exec) :
    ∃ addr c i, nextMove s = some (.hostWrite addr 8 c) ∧ portOffset s.build addr = some 0x010 ∧
      s.err = 0 ∧ decode c = .ok i ∧ operandCheck i s = none ∧ t.pend = some c := by
  have changed : t.fsm ≠ s.fsm := by simp [hs, ht]
  obtain ⟨-, rfl⟩ | ⟨addr, w, v, off, hm, hoff, rfl⟩ | ⟨_, _, _, -, -, rfl⟩ | ⟨-, -, rfl⟩ |
    ⟨-, -, _, _, _, -, -, -, rfl⟩ | ⟨-, rfl⟩ := step_cases hstep
  · exact absurd rfl changed
  · obtain hkeep | ⟨rfl, rfl, herr, ⟨i, hd, hi⟩, heq⟩ := hostWriteAt_fsm_cases off w v s
    · exact absurd hkeep changed
    · exact ⟨addr, v, i, hm, hoff, herr, hd, hi, by simp [heq]⟩
  · exact absurd (sameInputs_hostReadAt _ _ s).fsm changed
  · exact absurd rfl changed
  · exact absurd ht (by simp)
  · exact absurd ht (by simp)

/-- A step from EXEC to IDLE is a completion or a reset: any other keeps the FSM. -/
theorem step_ends_exec {s t : State} (hstep : step s = .next t) (hs : s.fsm = .exec) (ht : t.fsm = .idle) :
    nextMove s = some .complete ∨ nextMove s = some .reset := by
  have changed : t.fsm ≠ s.fsm := by simp [hs, ht]
  obtain ⟨-, rfl⟩ | ⟨_, _, _, _, -, -, rfl⟩ | ⟨_, _, _, -, -, rfl⟩ | ⟨hm, -⟩ | ⟨hm, -⟩ | ⟨hm, -⟩ := step_cases hstep
  · exact absurd rfl changed
  · exact absurd (sameInputs_hostWriteAt _ _ _ hs).fsm changed
  · exact absurd (sameInputs_hostReadAt _ _ s).fsm changed
  · exact .inl hm
  · exact .inl hm
  · exact .inr hm

/-- Settles O10: BUSY shows the FSM, whose two changes are acceptance, and completion or reset. -/
theorem busyChangesOnlyByAcceptanceAndCompletion : Obligations.BusyChangesOnlyByAcceptanceAndCompletion :=
  ⟨by decide, fun s => by simp [statusOf], fun _ _ => step_starts_exec, fun _ _ => step_ends_exec⟩

/-! ### ERR (R29) -/

/-- Acceptance changes ERR only by `raise`. -/
theorem accept_err_cases (c : Word) (s : State) :
    (accept c s).err = s.err ∨ (s.err = 0 ∧ ∃ e : ErrorCode, (accept c s).err = e.code) := by
  obtain ⟨e, heq, -⟩ | ⟨-, -, heq⟩ | ⟨-, -, i, -, -, heq⟩ := accept_cases c s <;> rw [heq]
  · exact (raise_err_cases e s).imp_right fun ⟨h0, he⟩ => ⟨h0, e, he⟩
  · exact .inl rfl
  · exact .inl (latch_err ..)

/-- A host write keeps ERR, records an error where there was none, or is a STATUS write with ERRCLR. -/
theorem hostWriteAt_err_cases (off width : Nat) (v : Word) (s : State) :
    (hostWriteAt off width v s).err = s.err ∨
    (s.err = 0 ∧ ∃ e : ErrorCode, (hostWriteAt off width v s).err = e.code) ∨
    (off = 0x018 ∧ width = 8 ∧ v.getLsbD 3 = true ∧ (hostWriteAt off width v s).err = 0) := by
  have raised : ∀ e, (s.raise e).err = s.err ∨ (s.err = 0 ∧ ∃ e' : ErrorCode, (s.raise e).err = e'.code) :=
    fun e => (raise_err_cases e s).imp_right fun ⟨h0, he⟩ => ⟨h0, e, he⟩
  obtain heq | heq | heq | ⟨-, -, k, -, heq⟩ | ⟨-, -, heq⟩ | ⟨hb, hr, heq⟩ | ⟨-, -, r, -, -, heq⟩ :=
    hostWriteAt_cases off width v s <;> rw [heq]
  · exact .inl rfl
  · exact (raised .badAccess).imp_right .inl
  · exact (raised .busyAccess).imp_right .inl
  · exact .inl (storeBytes_err ..)
  · exact (accept_err_cases v s).imp_right .inl
  · by_cases hclr : v.getLsbD 3 = true
    · exact .inr (.inr ⟨off_of_regAt_status hr, width_of_regAt hr hb, hclr, by rw [statusWrite_err, if_pos hclr]⟩)
    · exact .inl (by rw [statusWrite_err, if_neg hclr])
  · exact .inl (writeReg_err ..)

/-- A host read keeps ERR or raises BAD_ACCESS. -/
theorem hostReadAt_err_cases (off width : Nat) (s : State) :
    (hostReadAt off width s).err = s.err ∨
    (s.err = 0 ∧ (hostReadAt off width s).err = ErrorCode.badAccess.code) := by
  obtain ⟨-, heq⟩ | ⟨-, v, d, heq⟩ := hostReadAt_cases off width s <;> rw [heq]
  · exact raise_err_cases .badAccess s
  · exact .inl rfl

/-- A step that changes ERR records an error where there was none, or clears ERR by ERRCLR or reset. -/
theorem step_err_changes {s t : State} (hstep : step s = .next t) (hne : t.err ≠ s.err) :
    (s.err = 0 ∧ ∃ e : ErrorCode, t.err = e.code) ∨
    (t.err = 0 ∧ (nextMove s = some .reset ∨ ∃ addr w, nextMove s = some (.hostWrite addr 8 w) ∧
      portOffset s.build addr = some 0x018 ∧ w.getLsbD 3 = true)) := by
  obtain ⟨-, rfl⟩ | ⟨addr, w, v, off, hm, hoff, rfl⟩ | ⟨_, w, off, -, -, rfl⟩ | ⟨-, -, rfl⟩ |
    ⟨-, -, _, _, _, -, -, hexec, rfl⟩ | ⟨hm, rfl⟩ := step_cases hstep
  · exact absurd rfl hne
  · obtain hkeep | hraised | ⟨rfl, rfl, hbit, hzero⟩ := hostWriteAt_err_cases off w v s
    · exact absurd hkeep hne
    · exact .inl hraised
    · exact .inr ⟨hzero, .inr ⟨addr, v, hm, hoff, hbit⟩⟩
  · obtain hkeep | ⟨h0, hcode⟩ := hostReadAt_err_cases off w s
    · exact absurd hkeep hne
    · exact .inl ⟨h0, _, hcode⟩
  · exact absurd rfl hne
  · obtain hkeep | ⟨h0, hcode⟩ := exec_err_cases hexec
    · exact absurd hkeep hne
    · exact .inl ⟨h0, _, hcode⟩
  · exact .inr ⟨rfl, .inl hm⟩

/-- Settles O16: the changes of ERR, and the STATUS write that clears it. -/
theorem errIsStickyUntilCleared : Obligations.ErrIsStickyUntilCleared :=
  ⟨rfl, fun _ _ => step_err_changes, fun s w hw => by rw [hostWriteAt_status, statusWrite_err, if_pos hw]⟩

/-! ### A completion step, and OVF (R28) -/

/-- The step of a busy block whose next move is the completion runs the latched command. -/
theorem exec_of_step_complete {s t : State} {c : Word} {i : Instr} (hstep : step s = .next t)
    (hm : nextMove s = some .complete) (hs : s.fsm = .exec) (hp : s.pend = some c) (hd : decode c = .ok i) :
    ∃ u, exec i s = .next u ∧ t = u.retire.popMove := by
  obtain ⟨hm', -⟩ | ⟨_, _, _, _, hm', -⟩ | ⟨_, _, _, hm', -⟩ | ⟨-, hidle, -⟩ |
    ⟨-, -, c', j, u, hp', hd', hexec, rfl⟩ | ⟨hm', -⟩ := step_cases hstep
  · simp [hm] at hm'
  · simp [hm] at hm'
  · simp [hm] at hm'
  · simp [hs] at hidle
  · cases hp.symm.trans hp'
    cases hd.symm.trans hd'
    exact ⟨u, hexec, rfl⟩
  · simp [hm] at hm'

@[simp] theorem accept_ovf (c : Word) (s : State) : (accept c s).ovf = s.ovf := by
  obtain ⟨_, h, -⟩ | ⟨-, -, h⟩ | ⟨-, -, _, -, -, h⟩ := accept_cases c s <;> simp [h]

/-- OVF after a fold: set before, or set by the exact sum (R204). -/
theorem ovfAfter_eq_true {n : Nat} {s : State} :
    ovfAfter n s = true ↔ s.ovf = true ∨ 2 ^ 64 ≤ s.size.toNat + n := by
  rw [ovfAfter, Bool.or_eq_true, decide_eq_true_iff]

/-- A host write keeps OVF, or is a STATUS write of 1 to bit 1. -/
theorem hostWriteAt_ovf_cases (off width : Nat) (v : Word) (s : State) :
    (hostWriteAt off width v s).ovf = s.ovf ∨
    (off = 0x018 ∧ width = 8 ∧ v.getLsbD 1 = true ∧ (hostWriteAt off width v s).ovf = false) := by
  obtain heq | heq | heq | ⟨-, -, k, -, heq⟩ | ⟨-, -, heq⟩ | ⟨hb, hr, heq⟩ | ⟨-, -, r, -, -, heq⟩ :=
    hostWriteAt_cases off width v s <;> rw [heq]
  · exact .inl rfl
  · exact .inl (raise_ovf ..)
  · exact .inl (raise_ovf ..)
  · exact .inl (storeBytes_ovf ..)
  · exact .inl (accept_ovf ..)
  · by_cases hbit : v.getLsbD 1 = true
    · exact .inr ⟨off_of_regAt_status hr, width_of_regAt hr hb, hbit,
        by rw [statusWrite_ovf, hbit, Bool.not_true, Bool.and_false]⟩
    · exact .inl (by rw [statusWrite_ovf, Bool.eq_false_of_not_eq_true hbit, Bool.not_false, Bool.and_true])
  · exact .inl (writeReg_ovf ..)

@[simp] theorem hostReadAt_ovf (off width : Nat) (s : State) : (hostReadAt off width s).ovf = s.ovf := by
  obtain ⟨-, heq⟩ | ⟨-, _, _, heq⟩ := hostReadAt_cases off width s <;> simp [heq]

/-- A step that changes OVF is a completion that folds a chunk, a STATUS write of 1 to bit 1, or a reset. -/
theorem step_ovf_cases {s t : State} (hstep : step s = .next t) :
    t.ovf = s.ovf ∨
    (nextMove s = some .complete ∧ ∃ c i n, s.pend = some c ∧ decode c = .ok i ∧ (i, n) ∈ foldLengths s ∧
      t.ovf = ovfAfter n s) ∨
    (t.ovf = false ∧ (nextMove s = some .reset ∨ ∃ addr w, nextMove s = some (.hostWrite addr 8 w) ∧
      portOffset s.build addr = some 0x018 ∧ w.getLsbD 1 = true)) := by
  obtain ⟨-, rfl⟩ | ⟨addr, w, v, off, hm, hoff, rfl⟩ | ⟨_, w, off, -, -, rfl⟩ | ⟨-, -, rfl⟩ |
    ⟨hm, -, c, i, u, hp, hd, hexec, rfl⟩ | ⟨hm, rfl⟩ := step_cases hstep
  · exact .inl rfl
  · obtain hkeep | ⟨rfl, rfl, hbit, hzero⟩ := hostWriteAt_ovf_cases off w v s
    · exact .inl hkeep
    · exact .inr (.inr ⟨hzero, .inr ⟨addr, v, hm, hoff, hbit⟩⟩)
  · exact .inl (hostReadAt_ovf ..)
  · exact .inl rfl
  · obtain hkeep | ⟨n, hn, hovf⟩ := exec_ovf_cases hexec
    · exact .inl hkeep
    · exact .inr (.inl ⟨hm, c, i, n, hp, hd, hn, hovf⟩)
  · exact .inr (.inr ⟨rfl, .inl hm⟩)

/-- Settles O17: a fold sets OVF by its exact sum, and OVF changes by a fold, a STATUS write or reset only. -/
theorem ovfIsStickyUntilCleared : Obligations.OvfIsStickyUntilCleared := by
  refine ⟨rfl, fun s t c i n hstep hm hs hp hd hn hsum => ?_, fun s t hstep hs ht => ?_, fun s t hstep hs ht => ?_,
    fun s w hw => by simp [hw]⟩
  · obtain ⟨u, hexec, rfl⟩ := exec_of_step_complete hstep hm hs hp hd
    obtain ⟨chunk, rfl, hfold⟩ := exec_of_mem_foldLengths hn
    cases hexec.symm.trans hfold
    exact ⟨(foldChunk_ovf chunk s).trans (ovfAfter_eq_true.2 (.inr hsum)), foldChunk_err chunk s⟩
  · obtain hkeep | ⟨hm, c, i, n, hp, hd, hn, hovf⟩ | ⟨hzero, -⟩ := step_ovf_cases hstep
    · simp [hkeep, hs] at ht
    · exact ⟨hm, c, i, n, hp, hd, hn, (ovfAfter_eq_true.1 (hovf ▸ ht)).resolve_left (by simp [hs])⟩
    · simp [hzero] at ht
  · obtain hkeep | ⟨-, c, i, n, -, -, -, hovf⟩ | ⟨-, hcleared⟩ := step_ovf_cases hstep
    · simp [hkeep, hs] at ht
    · simp [hovf, ovfAfter, hs] at ht
    · exact hcleared

/-! ### BAND (R30) -/

@[simp] theorem accept_band (c : Word) (s : State) : (accept c s).band = s.band := by
  obtain ⟨_, h, -⟩ | ⟨-, -, h⟩ | ⟨-, -, _, -, -, h⟩ := accept_cases c s <;> simp [h]

@[simp] theorem hostWriteAt_band (off width : Nat) (v : Word) (s : State) :
    (hostWriteAt off width v s).band = s.band := by
  obtain h | h | h | ⟨-, -, _, -, h⟩ | ⟨-, -, h⟩ | ⟨-, -, h⟩ | ⟨-, -, _, -, -, h⟩ :=
    hostWriteAt_cases off width v s <;> simp [h]

@[simp] theorem hostReadAt_band (off width : Nat) (s : State) : (hostReadAt off width s).band = s.band := by
  obtain ⟨-, h⟩ | ⟨-, _, _, h⟩ := hostReadAt_cases off width s <;> simp [h]

/-- A command that runs the core sets BAND to the class of the length it folds. -/
theorem exec_band_of_mem {i : Instr} {n : Nat} {s u : State} (hn : (i, n) ∈ coreLengths s)
    (hexec : exec i s = .next u) : u.band = BitVec.ofNat 4 (bandClass n) := by
  simp only [coreLengths, List.mem_cons, Prod.mk.injEq, List.not_mem_nil, or_false] at hn
  obtain ⟨rfl, rfl⟩ | ⟨rfl, rfl⟩ | ⟨rfl, rfl⟩ | ⟨rfl, rfl⟩ | ⟨rfl, rfl⟩ | ⟨rfl, rfl⟩ | ⟨rfl, rfl⟩ | ⟨rfl, rfl⟩ |
    ⟨rfl, rfl⟩ := hn <;> cases hexec <;> simp [integerBytes]

/-- The commands of `coreLengths`, named without their lengths. -/
theorem mem_of_mem_coreLengths {i : Instr} {n : Nat} {s : State} (h : (i, n) ∈ coreLengths s) :
    i ∈ [Instr.write, .hash, .hashDs, .core, .writei8, .writei16, .writei32, .writei64, .writei128] :=
  List.mem_map_of_mem (f := Prod.fst) h

/-- A step that changes BAND is a reset or the completion of a command that runs the core. -/
theorem step_band_changes {s t : State} (hstep : step s = .next t) (hne : t.band ≠ s.band) :
    nextMove s = some .reset ∨
    (nextMove s = some .complete ∧ ∃ c i, s.pend = some c ∧ decode c = .ok i ∧
      i ∈ [Instr.write, .hash, .hashDs, .core, .writei8, .writei16, .writei32, .writei64, .writei128]) := by
  obtain ⟨-, rfl⟩ | ⟨_, _, _, _, -, -, rfl⟩ | ⟨_, _, _, -, -, rfl⟩ | ⟨-, -, rfl⟩ |
    ⟨hm, -, c, i, u, hp, hd, hexec, rfl⟩ | ⟨hm, rfl⟩ := step_cases hstep
  · exact absurd rfl hne
  · exact absurd (hostWriteAt_band ..) hne
  · exact absurd (hostReadAt_band ..) hne
  · exact absurd rfl hne
  · obtain hkeep | ⟨n, hn, -⟩ := exec_band_cases hexec
    · exact absurd hkeep hne
    · exact .inr ⟨hm, c, i, hp, hd, mem_of_mem_coreLengths hn⟩
  · exact .inl hm

/-- Settles O18: the class set by each command that runs the core, and the frame of BAND. -/
theorem bandIsWrittenOnlyByCoreCommands : Obligations.BandIsWrittenOnlyByCoreCommands := by
  refine ⟨rfl, bandClass_le, fun s t c i n hstep hm hs hp hd hn => ?_, fun _ _ => step_band_changes⟩
  obtain ⟨u, hexec, rfl⟩ := exec_of_step_complete hstep hm hs hp hd
  rw [popMove_band, retire_band, exec_band_of_mem hn hexec, toNat_bandClass]

/-! ### Undefined bytes (R34, R164) -/

/-- A chunk in IBUF has an undefined byte exactly where the safety predicate says so. -/
theorem chunkOf_hasUndefined {s : State} : (chunkOf s).hasUndefined = true ↔ chunkUndefined s := by
  simp [chunkOf, Chunk.hasUndefined, chunkUndefined]

/-- What a chunk command leaves of the model fault: it stood before, or the chunk has an undefined byte. -/
theorem recorded_fault_iff {s : State} :
    (if (chunkOf s).hasUndefined then some ModelFault.ibufUndefined else s.modelFault) = some .ibufUndefined ↔
      s.modelFault = some .ibufUndefined ∨ chunkUndefined s := by
  rw [← chunkOf_hasUndefined]
  by_cases h : (chunkOf s).hasUndefined = true <;> simp [h]

/-- The commands that fold their chunk of IBUF record the fault of that chunk. -/
theorem exec_chunk_fault {i : Instr} {s t : State} (hi : i ∈ [Instr.write, .hash, .hashDs, .core])
    (hexec : exec i s = .next t) :
    t.modelFault = some .ibufUndefined ↔ s.modelFault = some .ibufUndefined ∨ chunkUndefined s := by
  simp only [List.mem_cons, List.not_mem_nil, or_false] at hi
  obtain rfl | rfl | rfl | rfl := hi <;> cases hexec
  · rw [foldChunk_modelFault, recorded_fault_iff]
  · rw [hashChunk_modelFault, recorded_fault_iff]
  · rw [hashChunk_modelFault, recorded_fault_iff]
  · rw [coreChunk_modelFault, recorded_fault_iff]

/-- `n` bytes of a chunk make a number below 2^(8n). -/
theorem memRead_lt (c : Chunk) (site o n : Nat) : c.memRead site o n < 2 ^ (8 * n) := by
  have h := leNat_lt ((List.range n).map fun i => c.byteAt site (o + i))
  rwa [List.length_map, List.length_range, show (256 : Nat) = 2 ^ 8 from rfl, ← pow_mul] at h

/-- Byte `j` of a little-endian value. -/
theorem leNat_byte (bs : List Byte) {j : Nat} (hj : j < bs.length) :
    leNat bs / 2 ^ (8 * j) % 256 = bs[j].toNat := by
  induction bs generalizing j with
  | nil => simp at hj
  | cons b rest ih =>
    have hb := b.isLt
    cases j with
    | zero => simp only [leNat_cons, List.getElem_cons_zero]; omega
    | succ j =>
      have hshift : leNat (b :: rest) / 2 ^ (8 * (j + 1)) = leNat rest / 2 ^ (8 * j) := by
        rw [leNat_cons, show 8 * (j + 1) = 8 + 8 * j by omega, pow_add, ← Nat.div_div_eq_div_mul]
        congr 1
        omega
      rw [hshift, List.getElem_cons_succ]
      exact ih (by simpa using hj)

/-- Byte `j` of a read of `n` bytes, as it stands in a register, is byte `o + j` of the chunk. -/
theorem extract_memRead (c : Chunk) (site o : Nat) {n j : Nat} (hj : j < n) (hn : n ≤ 8) :
    (BitVec.ofNat 64 (c.memRead site o n)).extractLsb' (8 * j) 8 = c.byteAt site (o + j) := by
  have hsmall : c.memRead site o n < 2 ^ 64 :=
    lt_of_lt_of_le (memRead_lt c site o n) (Nat.pow_le_pow_right (by decide) (by omega))
  apply BitVec.eq_of_toNat_eq
  rw [BitVec.extractLsb'_toNat, BitVec.toNat_ofNat, Nat.mod_eq_of_lt hsmall, Nat.shiftRight_eq_div_pow, Chunk.memRead,
    leNat_byte _ (by simpa using hj), List.getElem_map, List.getElem_range]

/-- A defined byte of IBUF is what a reader sees of it. -/
theorem byteAt_chunkOf {s : State} {o : Nat} {b : Byte} (site : Nat) (ho : o < s.chunkLen.toNat)
    (hb : memGet s.ibuf (s.chunkOff.toNat + o) = some b) : (chunkOf s).byteAt site o = b := by
  apply byteAt_defined
  simp [chunkOf, ho, hb]

/-- The readers with their widths (R224, R225). -/
def readWidths : List (Instr × Nat) := [(.read32, 4), (.read64, 8)]

/-- A reader whose bytes lie in its chunk gives them in RES0, and notes the chunk's undefined bytes. -/
theorem exec_of_mem_readWidths {i : Instr} {w : Nat} {s : State} (hi : (i, w) ∈ readWidths)
    (hbound : s.arg0.toNat + w ≤ s.chunkLen.toNat) :
    exec i s = .next ((s.setResult (BitVec.ofNat 64 ((chunkOf s).memRead 0 s.arg0.toNat w)) 0).noteRead
      (chunkOf s).hasUndefined) := by
  rw [← chunkOf_len] at hbound
  simp only [readWidths, List.mem_cons, Prod.mk.injEq, List.not_mem_nil, or_false] at hi
  obtain ⟨rfl, rfl⟩ | ⟨rfl, rfl⟩ := hi
  · have hlt := memRead_lt (chunkOf s) 0 s.arg0.toNat 4
    have hwide : (BitVec.ofNat 32 ((chunkOf s).memRead 0 s.arg0.toNat 4)).setWidth 64
        = BitVec.ofNat 64 ((chunkOf s).memRead 0 s.arg0.toNat 4) := by
      apply BitVec.eq_of_toNat_eq
      simp only [BitVec.toNat_setWidth, BitVec.toNat_ofNat]
      omega
    simp [exec, execRead32, readResult, rd32_of_le hbound, hwide]
  · simp [exec, execRead64, readResult, rd64_of_le hbound]

/-- Settles O60: the model fault of the chunk commands, and the bytes that a reader gives all the same. -/
theorem undefinedBytesAreRecorded : Obligations.UndefinedBytesAreRecorded := by
  refine ⟨fun i s t hi hexec => exec_chunk_fault hi hexec, fun i w s hi hbound => ?_⟩
  have hw : w ≤ 8 := by
    simp only [List.mem_cons, Prod.mk.injEq, List.not_mem_nil, or_false] at hi
    omega
  refine ⟨_, exec_of_mem_readWidths hi hbound, recorded_fault_iff, rfl, ?_, fun j hj b hb => ?_⟩
  · rw [noteRead_res0, setResult_res0, BitVec.toNat_ofNat]
    exact lt_of_le_of_lt (Nat.mod_le _ _) (memRead_lt ..)
  · rw [noteRead_res0, setResult_res0, extract_memRead _ _ _ hj hw]
    exact byteAt_chunkOf 0 (by omega) hb

end Sys2Proof.Machine

/-! The statements of 20_memory: bad accesses (R67), reserved and unmapped offsets (R72), reads without side effect (R70), and IBUF as a little-endian memory that only the host writes (R60, R64, R65). -/

/-! ### Bad accesses and inert offsets (R67, R70, R72) -/

namespace Sys2Proof.Machine

/-- The three ways in which an access is bad (R67). -/
theorem badAccess_eq_true {off width : Nat} :
    badAccess off width = true ↔ width ∉ [1, 2, 4, 8] ∨ off % width ≠ 0 ∨ (off < 0x1000 ∧ width ≠ 8) := by
  simp only [badAccess, Bool.or_eq_true, Bool.not_eq_true', List.contains_eq_mem, decide_eq_false_iff_not,
    bne_iff_ne, Bool.and_eq_true, decide_eq_true_eq, or_assoc]

/-- What R67 asks of a legal access. -/
theorem badAccess_eq_false {off width : Nat} :
    badAccess off width = false ↔ width ∈ [1, 2, 4, 8] ∧ off % width = 0 ∧ (off < 0x1000 → width = 8) := by
  rw [← Bool.not_eq_true, badAccess_eq_true]
  tauto

/-- A bad access is dropped or reads 0, and raises BAD_ACCESS (R67). -/
theorem badAccess_effect {off width : Nat} (h : badAccess off width = true) (v : Word) (s : State) :
    hostWriteAt off width v s = s.raise .badAccess ∧ hostReadAt off width s = (s.raise .badAccess).give 0 :=
  ⟨if_pos h, if_pos h⟩

/-- The IBUF window (R60). -/
theorem ibufIndex_eq_some {bld : Build} {off k : Nat} :
    ibufIndex bld off = some k ↔ off = 0x1000 + k ∧ k < bld.bufBytes := by
  unfold ibufIndex
  split
  · rw [Option.some.injEq]; omega
  · simp only [reduceCtorEq, false_iff]; omega

/-- Settles O22: a bad access takes the first branch of the port, and the size of IBUF is a multiple of every width. -/
theorem badAccessesRaiseSix : Obligations.BadAccessesRaiseSix := by
  refine ⟨fun off w v s hbad => badAccess_effect (badAccess_eq_true.2 hbad) v s,
    fun b off w hbld hw haligned hlow hhigh => ?_⟩
  have hlegal : badAccess off w = false := badAccess_eq_false.2 ⟨hw, haligned, by omega⟩
  have hindex : ibufIndex b off = some (off - 0x1000) := ibufIndex_eq_some.2 (by omega)
  have := legal_access_within_ibuf hbld hlegal hindex
  omega

/-- The registers end below offset 0x090. -/
theorem off_lt_of_regAt {off : Nat} {r : Reg} (h : regAt off = some r) : off < 0x090 := by
  unfold regAt at h
  split at h <;> simp at h ⊢

/-- A legal access that meets neither IBUF nor a register has no effect, and reads 0 (R72). -/
theorem legal_access_inert {off width : Nat} {s : State} (hlegal : badAccess off width = false)
    (hibuf : ibufIndex s.build off = none) (hreg : regAt off = none) (v : Word) :
    hostWriteAt off width v s = s ∧ hostReadAt off width s = s.give 0 := by
  simp [hostWriteAt, hostReadAt, writeRegister, hlegal, hibuf, hreg]

/-- Settles O23: a reserved or unmapped offset is neither in IBUF nor a register's. -/
theorem reservedAndUnmappedOffsetsAreInert : Obligations.ReservedAndUnmappedOffsetsAreInert := by
  intro off w v s hoff
  have hibuf : ibufIndex s.build off = none := if_neg (by omega)
  have hreg : regAt off = none :=
    Option.eq_none_iff_forall_ne_some.2 fun r hr => by have := off_lt_of_regAt hr; omega
  exact ⟨fun hw haligned hwide => legal_access_inert (badAccess_eq_false.2 ⟨hw, haligned, hwide⟩) hibuf hreg v,
    fun hbad => badAccess_effect (badAccess_eq_true.2 hbad) v s⟩

/-- Settles O28: a legal read gives a value and takes at most a draw. -/
theorem readsHaveNoSideEffect : Obligations.ReadsHaveNoSideEffect := by
  intro off w s hw haligned hwide
  have hlegal := badAccess_eq_false.2 ⟨hw, haligned, hwide⟩
  obtain ⟨hbad, -⟩ | ⟨-, v, d, heq⟩ := hostReadAt_cases off w s
  · simp [hlegal] at hbad
  · exact ⟨v, _, heq⟩

/-! ### Little-endian bytes (R14, R64) -/

@[simp] theorem length_leBytes {w : Nat} (v : BitVec w) (n : Nat) : (leBytes v n).length = n := by
  simp [leBytes]

theorem getElem?_leBytes {w i n : Nat} (v : BitVec w) (h : i < n) :
    (leBytes v n)[i]? = some (v.extractLsb' (8 * i) 8) := by
  simp [leBytes, h]

/-- The bytes of a value are its low bytes and those of the value shifted down past them. -/
theorem leBytes_add {w : Nat} (v : BitVec w) (m n : Nat) :
    leBytes v (m + n) = leBytes v m ++ leBytes (v >>> (8 * m)) n := by
  have shifted : ∀ i, v.extractLsb' (8 * (m + i)) 8 = (v >>> (8 * m)).extractLsb' (8 * i) 8 := fun i => by
    ext j hj
    simp [Nat.mul_add, Nat.add_assoc]
  simp [leBytes, List.range_add, shifted]

/-- The low bytes of a value make the value modulo their range. -/
theorem leNat_leBytes {w : Nat} (v : BitVec w) (n : Nat) : leNat (leBytes v n) = v.toNat % 2 ^ (8 * n) := by
  induction n generalizing v with
  | zero => simp [leBytes, Nat.mod_one]
  | succ n ih =>
    have low : leBytes v 1 = [v.extractLsb' 0 8] := rfl
    rw [Nat.add_comm, leBytes_add, low, List.singleton_append, leNat_cons, ih, BitVec.toNat_ushiftRight,
      BitVec.extractLsb'_toNat, Nat.shiftRight_zero, Nat.shiftRight_eq_div_pow, Nat.mul_add, pow_add, Nat.mod_mul]
    rfl

/-- A list of bytes is read as a chunk of them is. -/
theorem memRead_map_some (data : List Byte) (d site : Nat) :
    (⟨data.map some, d⟩ : Chunk).memRead site 0 data.length = leNat data := by
  rw [Chunk.memRead]
  congr 1
  refine List.ext_getElem (by simp) fun i _ hi => ?_
  rw [List.getElem_map, List.getElem_range, Nat.zero_add]
  exact byteAt_map_some (List.getElem?_eq_getElem hi)

/-- Byte `j` of a little-endian value, as it stands in a register. -/
theorem extract_leNat (data : List Byte) {j : Nat} (hj : j < data.length) (hlen : data.length ≤ 8) :
    (BitVec.ofNat 64 (leNat data)).extractLsb' (8 * j) 8 = data[j] := by
  rw [← memRead_map_some data 0 0, extract_memRead _ 0 0 hj hlen, Nat.zero_add]
  exact byteAt_map_some (List.getElem?_eq_getElem hj)

/-- A little-endian value in a register lies below the range of its bytes. -/
theorem toNat_ofNat_leNat_lt (data : List Byte) : (BitVec.ofNat 64 (leNat data)).toNat < 2 ^ (8 * data.length) := by
  rw [← memRead_map_some data 0 0, BitVec.toNat_ofNat]
  exact lt_of_le_of_lt (Nat.mod_le _ _) (memRead_lt ..)

/-! ### Legal accesses to IBUF (R64, R282) -/

/-- A naturally aligned access of a legal width at an IBUF index is legal, and is IBUF's. -/
theorem ibuf_access {bld : Build} {k width : Nat} (hw : width ∈ [1, 2, 4, 8]) (haligned : k % width = 0)
    (hk : k < bld.bufBytes) : badAccess (0x1000 + k) width = false ∧ ibufIndex bld (0x1000 + k) = some k := by
  refine ⟨badAccess_eq_false.2 ⟨hw, ?_, by omega⟩, ibufIndex_eq_some.2 ⟨rfl, hk⟩⟩
  simp only [List.mem_cons, List.not_mem_nil, or_false] at hw
  obtain rfl | rfl | rfl | rfl := hw <;> omega

/-- A legal write to IBUF of an idle block stores the bytes of the value. -/
theorem hostWriteAt_ibuf {k width : Nat} {s : State} (hidle : s.fsm = .idle) (hw : width ∈ [1, 2, 4, 8])
    (haligned : k % width = 0) (hk : k < s.build.bufBytes) (v : Word) :
    hostWriteAt (0x1000 + k) width v s = s.storeBytes k (leBytes v width) := by
  obtain ⟨hlegal, hindex⟩ := ibuf_access hw haligned hk
  simp [hostWriteAt, hlegal, hindex, writeIbuf, hidle]

/-- A legal read of IBUF gives the little-endian value of the bytes it sees, and takes a draw where one is undefined. -/
theorem hostReadAt_ibuf {k width : Nat} {s : State} (hw : width ∈ [1, 2, 4, 8]) (haligned : k % width = 0)
    (hk : k < s.build.bufBytes) : hostReadAt (0x1000 + k) width s =
      (s.give (BitVec.ofNat 64 (leNat (ibufSeen k width s)))).drawIf (ibufUndefinedIn k width s) := by
  obtain ⟨hlegal, hindex⟩ := ibuf_access hw haligned hk
  simp [hostReadAt, hlegal, hindex]

@[simp] theorem length_ibufSeen (k width : Nat) (s : State) : (ibufSeen k width s).length = width := by
  simp [ibufSeen]

/-- A defined byte of IBUF is seen as it is (R34). -/
theorem getElem_ibufSeen {k width i : Nat} {s : State} {b : Byte} (hb : memGet s.ibuf (k + i) = some b)
    (hi : i < (ibufSeen k width s).length) : (ibufSeen k width s)[i] = b := by
  simp [ibufSeen, hb]

theorem ibufUndefinedIn_eq_true {k width : Nat} {s : State} :
    ibufUndefinedIn k width s = true ↔ ∃ i < width, memGet s.ibuf (k + i) = none := by
  simp [ibufUndefinedIn]

/-- No draw is taken of a range of IBUF that is wholly defined. -/
theorem ibufUndefinedIn_eq_false {k width : Nat} {s : State} (h : ∀ i < width, memGet s.ibuf (k + i) ≠ none) :
    ibufUndefinedIn k width s = false := by
  rw [← Bool.not_eq_true, ibufUndefinedIn_eq_true]
  exact fun ⟨i, hi, hnone⟩ => h i hi hnone

/-- A legal read of IBUF, in any state: the defined bytes exactly, the others left open (R64, R34). -/
theorem ibufReadGives_of_legal {k width : Nat} {s : State} (hw : width ∈ [1, 2, 4, 8]) (haligned : k % width = 0)
    (hk : k < s.build.bufBytes) : ibufReadGives k width s := by
  have hread := hostReadAt_ibuf hw haligned hk
  have hlen := length_ibufSeen k width s
  refine ⟨BitVec.ofNat 64 (leNat (ibufSeen k width s)), ?_, fun i hi b hb => ?_, fun hdef => ?_, fun hundef => ?_⟩
  · simpa [hlen] using toNat_ofNat_leNat_lt (ibufSeen k width s)
  · have hwide : width ≤ 8 := by
      simp only [List.mem_cons, List.not_mem_nil, or_false] at hw
      omega
    rw [extract_leNat _ (hlen.symm ▸ hi) (hlen.symm ▸ hwide), getElem_ibufSeen hb]
  · rw [hread, ibufUndefinedIn_eq_false hdef]
    rfl
  · rw [hread, ibufUndefinedIn_eq_true.2 hundef]
    rfl

/-- After a store, each byte of its range is the byte stored there. -/
theorem memGet_storeBytes_same {k i : Nat} {bs : List Byte} (s : State) (hi : i < bs.length) :
    memGet (s.storeBytes k bs).ibuf (k + i) = bs[i]? := by
  rw [storeBytes_ibuf, memGet_memSetBytes, if_pos (by omega), Nat.add_sub_cancel_left]

/-- After a store, each byte outside its range is as it was. -/
theorem memGet_storeBytes_other {k j : Nat} {bs : List Byte} (s : State) (hj : j < k ∨ k + bs.length ≤ j) :
    memGet (s.storeBytes k bs).ibuf j = memGet s.ibuf j := by
  rw [storeBytes_ibuf, memGet_memSetBytes, if_neg (by omega)]

/-- Bytes just stored are all seen. -/
theorem ibufSeen_storeBytes (k : Nat) (bs : List Byte) (s : State) :
    ibufSeen k bs.length (s.storeBytes k bs) = bs :=
  List.ext_getElem (length_ibufSeen ..) fun _ _ hi =>
    getElem_ibufSeen ((memGet_storeBytes_same s hi).trans (List.getElem?_eq_getElem hi)) _

/-- Settles O29: a read sees the bytes of IBUF, a write stores those of the value, and both are little-endian. -/
theorem ibufWriteIsLittleEndianAndReadsBack : Obligations.IbufWriteIsLittleEndianAndReadsBack := by
  refine ⟨fun _ _ _ => ibufReadGives_of_legal, fun k w v s hidle hw haligned hk => ?_⟩
  rw [hostWriteAt_ibuf hidle hw haligned hk]
  have hbyte : ∀ i < w, memGet (s.storeBytes k (leBytes v w)).ibuf (k + i) = some (v.extractLsb' (8 * i) 8) :=
    fun i hi => (memGet_storeBytes_same s (by simpa using hi)).trans (getElem?_leBytes v hi)
  have hseen : ibufSeen k w (s.storeBytes k (leBytes v w)) = leBytes v w := by
    simpa using ibufSeen_storeBytes k (leBytes v w) s
  refine ⟨rfl, hbyte, fun j hj => memGet_storeBytes_other s (by simpa using hj), ?_⟩
  have hdefined : ibufUndefinedIn k w (s.storeBytes k (leBytes v w)) = false :=
    ibufUndefinedIn_eq_false fun i hi => by rw [hbyte i hi]; exact Option.some_ne_none _
  rw [hostReadAt_ibuf (s := s.storeBytes k _) hw haligned hk, hdefined, hseen, leNat_leBytes]
  rfl

/-! ### Two narrow writes (R65) -/

/-- Storing two runs of bytes one after the other stores their concatenation. -/
theorem memSetBytes_append (m : List Host.Cell) (k : Nat) (as bs : List Byte) :
    memSetBytes m k (as ++ bs) = memSetBytes (memSetBytes m k as) (k + as.length) bs := by
  induction as generalizing m k with
  | nil => rfl
  | cons a as ih =>
    rw [List.cons_append, memSetBytes, ih, memSetBytes, List.length_cons, Nat.add_right_comm, Nat.add_assoc]

theorem storeBytes_storeBytes (s : State) (k : Nat) (as bs : List Byte) :
    (s.storeBytes k as).storeBytes (k + as.length) bs = s.storeBytes k (as ++ bs) := by
  simp only [State.storeBytes, memSetBytes_append]

/-- Settles O31: the bytes of the wide value are those of the two narrow ones, stored one after the other. -/
theorem twoNarrowWritesAreOneWideWrite : Obligations.TwoNarrowWritesAreOneWideWrite := by
  intro k w v s hidle hw haligned hk
  obtain ⟨hnarrow, hwide, hpos⟩ : w ∈ [1, 2, 4, 8] ∧ 2 * w ∈ [1, 2, 4, 8] ∧ 0 < w := by
    simp only [List.mem_cons, List.not_mem_nil, or_false] at hw
    obtain rfl | rfl | rfl := hw <;> decide
  have hlow : k % w = 0 := Nat.mod_eq_zero_of_dvd ((Nat.dvd_mul_left w 2).trans (Nat.dvd_of_mod_eq_zero haligned))
  have hhigh : (k + w) % w = 0 := by rw [Nat.add_mod_right, hlow]
  have hlen := length_leBytes v w
  calc hostWriteAt (0x1000 + (k + w)) w (v >>> (8 * w)) (hostWriteAt (0x1000 + k) w v s)
      = (s.storeBytes k (leBytes v w)).storeBytes (k + w) (leBytes (v >>> (8 * w)) w) := by
        rw [hostWriteAt_ibuf hidle hnarrow hlow (by omega),
          hostWriteAt_ibuf (s := s.storeBytes k _) hidle hnarrow hhigh (by rw [storeBytes_build]; omega)]
    _ = s.storeBytes k (leBytes v (2 * w)) := by
        rw [Nat.two_mul, leBytes_add, ← storeBytes_storeBytes, hlen]
    _ = hostWriteAt (0x1000 + k) (2 * w) v s := (hostWriteAt_ibuf hidle hwide haligned (by omega) v).symm

/-! ### What changes IBUF (R60, R34) -/

@[simp] theorem accept_ibuf (c : Word) (s : State) : (accept c s).ibuf = s.ibuf := by
  obtain ⟨_, h, -⟩ | ⟨-, -, h⟩ | ⟨-, -, _, -, -, h⟩ := accept_cases c s <;> simp [h]

/-- A host write keeps IBUF, or stores the bytes of the value in IBUF of an idle block. -/
theorem hostWriteAt_ibuf_cases (off width : Nat) (v : Word) (s : State) :
    (hostWriteAt off width v s).ibuf = s.ibuf ∨
    (s.fsm = .idle ∧ ∃ k, off = 0x1000 + k ∧ hostWriteAt off width v s = s.storeBytes k (leBytes v width)) := by
  obtain heq | heq | heq | ⟨-, hidle, k, hk, heq⟩ | ⟨-, -, heq⟩ | ⟨-, -, heq⟩ | ⟨-, -, r, -, -, heq⟩ :=
    hostWriteAt_cases off width v s <;> rw [heq]
  · exact .inl rfl
  · exact .inl (raise_ibuf ..)
  · exact .inl (raise_ibuf ..)
  · exact .inr ⟨hidle, k, (ibufIndex_eq_some.1 hk).1, rfl⟩
  · exact .inl (accept_ibuf ..)
  · exact .inl (statusWrite_ibuf ..)
  · exact .inl (writeReg_ibuf ..)

/-- Settles O30: of the kinds of step, only reset and a store reach IBUF, and a store changes its own range only. -/
theorem ibufChangesOnlyByHostWritesAndReset : Obligations.IbufChangesOnlyByHostWritesAndReset := by
  intro s t k hstep hne
  have changed : t.ibuf ≠ s.ibuf := fun h => hne (by rw [h])
  obtain ⟨-, rfl⟩ | ⟨addr, w, v, off, hm, hoff, rfl⟩ | ⟨_, w, off, -, -, rfl⟩ | ⟨-, -, rfl⟩ |
    ⟨-, -, _, _, _, -, -, hexec, rfl⟩ | ⟨hm, -⟩ := step_cases hstep
  · exact absurd rfl changed
  · obtain hkeep | ⟨hidle, j, rfl, heq⟩ := hostWriteAt_ibuf_cases off w v s
    · exact absurd hkeep changed
    · have hcovered : ¬ (k < j ∨ j + (leBytes v w).length ≤ k) := fun houtside =>
        hne (by rw [popMove_ibuf, heq, memGet_storeBytes_other s houtside])
      rw [length_leBytes] at hcovered
      exact .inr ⟨hidle, addr, w, v, _, hm, hoff, by omega, by omega, by omega⟩
  · exact absurd (sameInputs_hostReadAt off w s).ibuf changed
  · exact absurd rfl changed
  · exact absurd (exec_ibuf hexec) changed
  · exact .inl hm

end Sys2Proof.Machine

/-! The statements of 30_encoding: decoding and encoding are inverse (R90 to R97), the grounds of an illegal word (R98, R103), and what each command writes (R96). -/

/-! ### The fields of a word (R90) -/

namespace Sys2Proof

/-- The four fields lie side by side and leave no bit of the word out. -/
theorem wordOf_fieldsOf (c : Word) : wordOf (fieldsOf c) = c := by
  apply BitVec.eq_of_getLsbD_eq
  intro k hk
  simp only [wordOf, fieldsOf, BitVec.getLsbD_append, BitVec.getLsbD_extractLsb']
  grind

/-- The model's statement of the encoded fields, which it has for each command, holds of every command. -/
theorem encodedFields (i : Instr) : Laws.EncodedFields.Statement i := by
  cases i
  exacts [Laws.EncodedFields.nop, Laws.EncodedFields.init, Laws.EncodedFields.initDs, Laws.EncodedFields.write,
    Laws.EncodedFields.writei8, Laws.EncodedFields.writei16, Laws.EncodedFields.writei32,
    Laws.EncodedFields.writei64, Laws.EncodedFields.writei128, Laws.EncodedFields.finish,
    Laws.EncodedFields.hash, Laws.EncodedFields.hashDs, Laws.EncodedFields.mum, Laws.EncodedFields.mix,
    Laws.EncodedFields.evolve, Laws.EncodedFields.read32, Laws.EncodedFields.read64, Laws.EncodedFields.core]

theorem fieldsFor_wf (i : Instr) : (fieldsFor i).wf = true := (encodedFields i).1

theorem fieldsOf_encode (i : Instr) : fieldsOf (encode i) = fieldsFor i := (encodedFields i).2

/-- A word is a command's encoding exactly where its fields are the command's. -/
theorem eq_encode_iff {c : Word} {i : Instr} : c = encode i ↔ fieldsOf c = fieldsFor i := by
  constructor
  · rintro rfl
    exact fieldsOf_encode i
  · intro h
    rw [encode, ← h, wordOf_fieldsOf]

/-- What R91 to R94 ask of the fields of a legal word. -/
theorem Fields.wf_iff {f : Fields} : f.wf = true ↔
    f.op.toNat ∈ [0x00, 0x01, 0x02, 0x03, 0x04, 0x05, 0x10, 0x11, 0x12, 0x13, 0x14, 0x15] ∧ f.rsv = 0 ∧
    (f.d = 0 ∨ f.op.toNat ∈ [0x01, 0x05]) ∧ (f.w = 0 ∨ f.op.toNat = 0x03) ∧ f.w.toNat ≤ 4 := by
  have hop : f.opDefined = true ↔
      f.op.toNat ∈ [0x00, 0x01, 0x02, 0x03, 0x04, 0x05, 0x10, 0x11, 0x12, 0x13, 0x14, 0x15] := by
    simp only [Fields.opDefined, Bool.or_eq_true, Bool.and_eq_true, decide_eq_true_eq, List.mem_cons,
      List.not_mem_nil, or_false]
    omega
  rw [← hop]
  simp [Fields.wf, Fields.rsvZero, Fields.dAllowed, Fields.wAllowed, Fields.wInRange, ← BitVec.toNat_inj,
    and_assoc, or_assoc]

/-! ### The decoder, one lemma for each kind of opcode (R91 to R93) -/

theorem decodePlain_eq_ok {f : Fields} {i j : Instr} : decodePlain f i = .ok j ↔ f.d = 0 ∧ f.w = 0 ∧ i = j := by
  unfold decodePlain
  split_ifs <;> simp_all

theorem decodeSeeded_eq_ok {f : Fields} {i j k : Instr} :
    decodeSeeded f i j = .ok k ↔ f.w = 0 ∧ (f.d = 0 ∧ i = k ∨ f.d = 1 ∧ j = k) := by
  unfold decodeSeeded
  obtain hd | hd := BitVec.eq_zero_or_eq_one f.d <;> split_ifs <;> simp_all

theorem decodeInteger_eq_ok {f : Fields} {k : Instr} :
    decodeInteger f = .ok k ↔ f.d = 0 ∧
      (f.w = 0 ∧ .writei8 = k ∨ f.w = 1 ∧ .writei16 = k ∨ f.w = 2 ∧ .writei32 = k ∨ f.w = 3 ∧ .writei64 = k ∨
        f.w = 4 ∧ .writei128 = k) := by
  unfold decodeInteger
  split_ifs
  · simp_all
  · split <;> simp_all [← BitVec.toNat_inj]

/-- INIT and HASH take either value of D. -/
theorem decodeSeeded_answers {f : Fields} (i j : Instr) (hw : f.w = 0) : ∃ k, decodeSeeded f i j = .ok k := by
  obtain hd | hd := BitVec.eq_zero_or_eq_one f.d
  · exact ⟨i, decodeSeeded_eq_ok.2 ⟨hw, .inl ⟨hd, rfl⟩⟩⟩
  · exact ⟨j, decodeSeeded_eq_ok.2 ⟨hw, .inr ⟨hd, rfl⟩⟩⟩

/-- WRITEI takes each of the width codes 0 to 4. -/
theorem decodeInteger_answers {f : Fields} (hd : f.d = 0) (hw : f.w.toNat ≤ 4) : ∃ k, decodeInteger f = .ok k := by
  rw [decodeInteger, if_neg (not_not.2 hd)]
  interval_cases f.w.toNat <;> exact ⟨_, rfl⟩

theorem op_eq_ofNat {op : BitVec 8} {n : Nat} (h : op.toNat = n) : op = BitVec.ofNat 8 n := by
  rw [← h, BitVec.ofNat_toNat, BitVec.setWidth_eq]

/-- The opcode map gives a command only to the command's own fields. -/
theorem eq_fieldsFor_of_decodeOp {f : Fields} {i : Instr} (hrsv : f.rsv = 0) (h : decodeOp f = .ok i) :
    f = fieldsFor i := by
  obtain ⟨op, d, w, rsv⟩ := f
  cases hrsv
  unfold decodeOp at h
  split at h <;> rename_i hop
  case h_13 => cases h
  all_goals cases op_eq_ofNat hop
  case h_2 | h_6 =>
    obtain ⟨hw, ⟨hd, rfl⟩ | ⟨hd, rfl⟩⟩ := decodeSeeded_eq_ok.1 h <;> cases hd <;> cases hw <;> rfl
  case h_4 =>
    obtain ⟨hd, ⟨hw, rfl⟩ | ⟨hw, rfl⟩ | ⟨hw, rfl⟩ | ⟨hw, rfl⟩ | ⟨hw, rfl⟩⟩ := decodeInteger_eq_ok.1 h <;>
      cases hd <;> cases hw <;> rfl
  all_goals
    obtain ⟨hd, hw, rfl⟩ := decodePlain_eq_ok.1 h
    cases hd
    cases hw
    rfl

/-- The opcode map gives every legal word's fields a command. -/
theorem decodeOp_answers {f : Fields} (h : f.wf = true) : ∃ i, decodeOp f = .ok i := by
  obtain ⟨hop, -, hd, hw, hrange⟩ := Fields.wf_iff.1 h
  unfold decodeOp
  split <;> rename_i hcode
  case h_13 => simp_all
  case h_2 | h_6 => exact decodeSeeded_answers _ _ (by simpa [hcode] using hw)
  case h_4 => exact decodeInteger_answers (by simpa [hcode] using hd) hrange
  all_goals exact ⟨_, decodePlain_eq_ok.2 ⟨by simpa [hcode] using hd, by simpa [hcode] using hw, rfl⟩⟩

/-! ### Decoding and encoding are inverse (R97) -/

theorem decode_encode (i : Instr) : decode (encode i) = .ok i := by
  cases i <;> rfl

theorem decode_eq_ok_iff {c : Word} {i : Instr} : decode c = .ok i ↔ c = encode i := by
  constructor
  · intro h
    unfold decode at h
    split at h
    · cases h
    · exact eq_encode_iff.2 (eq_fieldsFor_of_decodeOp (not_not.1 ‹_›) h)
  · rintro rfl
    exact decode_encode i

/-- The commands in the order of R97. -/
def commands : List Instr :=
  [.nop, .init, .initDs, .write, .writei8, .writei16, .writei32, .writei64, .writei128, .finish, .hash, .hashDs,
    .mum, .mix, .evolve, .read32, .read64, .core]

theorem mem_commands (i : Instr) : i ∈ commands := by
  cases i <;> decide

/-- The words that decode are the encodings of the commands. -/
theorem exists_decode_iff_mem {c : Word} : (∃ i, decode c = .ok i) ↔ c ∈ commands.map encode := by
  simp only [decode_eq_ok_iff, List.mem_map, mem_commands, true_and, eq_comm (a := c)]

/-- Settles O1: the decoder answers a command only on that command's own word. -/
theorem legalWordsAreTheEighteen : Obligations.LegalWordsAreTheEighteen :=
  ⟨rfl, fun _ _ => decode_eq_ok_iff, fun _ => exists_decode_iff_mem⟩

/-- Settles O2: each legal word is its command's encoding, and each illegal one meets its own ground first. -/
theorem wordsReadAsTheTableSays : Obligations.WordsReadAsTheTableSays :=
  ⟨decode_encode .nop, decode_encode .init, decode_encode .initDs, decode_encode .write, decode_encode .writei8,
    decode_encode .writei16, decode_encode .writei32, decode_encode .writei64, decode_encode .writei128,
    decode_encode .finish, decode_encode .hash, decode_encode .hashDs, decode_encode .mum, decode_encode .mix,
    decode_encode .evolve, decode_encode .read32, decode_encode .read64, decode_encode .core, rfl, rfl, rfl, rfl⟩

/-! ### Illegal words (R98) -/

theorem exists_decode_iff_wf {c : Word} : (∃ i, decode c = .ok i) ↔ (fieldsOf c).wf = true := by
  constructor
  · rintro ⟨i, h⟩
    rw [eq_encode_iff.1 (decode_eq_ok_iff.1 h)]
    exact fieldsFor_wf i
  · intro h
    rw [decode, if_neg (not_not.2 (Fields.wf_iff.1 h).2.1)]
    exact decodeOp_answers h

/-- The grounds (a) to (e) of R98 on the fields of a word. -/
theorem Fields.not_wf_iff {f : Fields} : ¬ f.wf = true ↔
    f.op.toNat ∉ [0x00, 0x01, 0x02, 0x03, 0x04, 0x05, 0x10, 0x11, 0x12, 0x13, 0x14, 0x15] ∨ f.rsv ≠ 0 ∨
    (f.d ≠ 0 ∧ f.op.toNat ∉ [0x01, 0x05]) ∨ (f.w ≠ 0 ∧ f.op.toNat ≠ 0x03) ∨
    (5 ≤ f.w.toNat ∧ f.op.toNat = 0x03) := by
  have hrange : 5 ≤ f.w.toNat → f.w ≠ 0 := by
    rintro h h0
    simp [h0] at h
  rw [Fields.wf_iff, ← not_lt, Nat.lt_iff_add_one_le]
  tauto

/-- The field D is bit 8. -/
theorem fieldsOf_d_ne_zero {c : Word} : (fieldsOf c).d ≠ 0 ↔ c.getLsbD 8 = true := by
  have h : (fieldsOf c).d = BitVec.ofBool (c.getLsbD 8) := by
    ext k hk
    simp [fieldsOf, Nat.lt_one_iff.1 hk]
  rw [h]
  cases c.getLsbD 8 <;> decide

end Sys2Proof

namespace Sys2Proof.Machine

/-- A CMD write of an illegal word to an idle block without error raises ILLEGAL_CMD (R98, R243). -/
theorem accept_of_illegal {c : Word} {s : State} (hc : ∀ i, decode c ≠ .ok i) (hidle : s.fsm = .idle)
    (herr : s.err = 0) : accept c s = s.raise .illegalCmd := by
  cases hd : decode c with
  | error _ => simp [accept, hidle, herr, hd]
  | ok i => exact absurd hd (hc i)

/-- Settles O3: an illegal word is one whose fields are not well-formed, and acceptance only records its code. -/
theorem illegalWordsAreThoseOfTheFiveGrounds : Obligations.IllegalWordsAreThoseOfTheFiveGrounds := by
  refine ⟨fun w => ?_, fun w s hw hidle herr => ?_⟩
  · rw [← not_exists, exists_decode_iff_wf, Fields.not_wf_iff, fieldsOf_d_ne_zero]
    rfl
  · rw [hostWriteAt_regAt (r := .cmd) rfl]
    exact (accept_of_illegal hw hidle herr).trans (raise_of_err_zero .illegalCmd herr)

/-! ### What each command writes (R96, R227) -/

/-- The two states agree on what no command writes but IBUF: the build, the sequencing, the operands, and the moves and the host's returns. -/
structure State.SameOperands (s t : State) : Prop where
  build : t.build = s.build
  fsm : t.fsm = s.fsm
  pend : t.pend = s.pend
  arg0 : t.arg0 = s.arg0
  arg1 : t.arg1 = s.arg1
  chunkOff : t.chunkOff = s.chunkOff
  chunkLen : t.chunkLen = s.chunkLen
  agenda : t.agenda = s.agenda
  returned : t.returned = s.returned

theorem sameOperands_foldChunk (c : Chunk) (s : State) : s.SameOperands (foldChunk c s) := by
  obtain ⟨_, _, _, h⟩ := foldChunk_effect c s
  rw [h]
  constructor <;> rfl

theorem sameOperands_hashChunk (seed : Word) (c : Chunk) (s : State) : s.SameOperands (hashChunk seed c s) := by
  obtain ⟨_, h⟩ := hashChunk_effect seed c s
  rw [h]
  constructor <;> rfl

theorem sameOperands_coreChunk (c : Chunk) (s : State) : s.SameOperands (coreChunk c s) := by
  obtain ⟨_, _, _, h⟩ := coreChunk_effect c s
  rw [h]
  constructor <;> rfl

theorem sameOperands_readResult (v : Option Word) (s : State) : s.SameOperands (readResult v s) := by
  obtain ⟨-, h⟩ | ⟨_, -, h⟩ := readResult_cases v s <;> rw [h] <;> constructor <;> rfl

/-- No command writes the latch or an operand. -/
theorem exec_sameOperands {i : Instr} {s t : State} (h : exec i s = .next t) : s.SameOperands t := by
  obtain rfl | ⟨_, rfl⟩ | ⟨_, -, rfl⟩ | ⟨-, _, rfl⟩ | ⟨-, rfl⟩ | ⟨_, _, rfl⟩ | ⟨_, -, rfl⟩ := exec_cases h
  · constructor <;> rfl
  · constructor <;> rfl
  · exact sameOperands_foldChunk ..
  · exact sameOperands_hashChunk ..
  · exact sameOperands_coreChunk ..
  · constructor <;> rfl
  · exact sameOperands_readResult ..

/-! What the shared operations leave of the stream, the results and the draws. -/

@[simp] theorem foldChunk_res0 (c : Chunk) (s : State) : (foldChunk c s).res0 = s.res0 := by
  obtain ⟨_, _, _, h⟩ := foldChunk_effect c s; simp [h]
@[simp] theorem foldChunk_res1 (c : Chunk) (s : State) : (foldChunk c s).res1 = s.res1 := by
  obtain ⟨_, _, _, h⟩ := foldChunk_effect c s; simp [h]
@[simp] theorem foldChunk_draws (c : Chunk) (s : State) :
    (foldChunk c s).draws = if c.hasUndefined then s.draws + 1 else s.draws := by
  obtain ⟨_, _, _, h⟩ := foldChunk_effect c s; simp [h]

@[simp] theorem hashChunk_seed (seed : Word) (c : Chunk) (s : State) : (hashChunk seed c s).seed = s.seed := by
  obtain ⟨_, h⟩ := hashChunk_effect seed c s; simp [h]
@[simp] theorem hashChunk_accA (seed : Word) (c : Chunk) (s : State) : (hashChunk seed c s).accA = s.accA := by
  obtain ⟨_, h⟩ := hashChunk_effect seed c s; simp [h]
@[simp] theorem hashChunk_accB (seed : Word) (c : Chunk) (s : State) : (hashChunk seed c s).accB = s.accB := by
  obtain ⟨_, h⟩ := hashChunk_effect seed c s; simp [h]
@[simp] theorem hashChunk_size (seed : Word) (c : Chunk) (s : State) : (hashChunk seed c s).size = s.size := by
  obtain ⟨_, h⟩ := hashChunk_effect seed c s; simp [h]

@[simp] theorem coreChunk_size (c : Chunk) (s : State) : (coreChunk c s).size = s.size := by
  obtain ⟨_, _, _, h⟩ := coreChunk_effect c s; simp [h]
@[simp] theorem coreChunk_res0 (c : Chunk) (s : State) : (coreChunk c s).res0 = s.res0 := by
  obtain ⟨_, _, _, h⟩ := coreChunk_effect c s; simp [h]
@[simp] theorem coreChunk_res1 (c : Chunk) (s : State) : (coreChunk c s).res1 = s.res1 := by
  obtain ⟨_, _, _, h⟩ := coreChunk_effect c s; simp [h]

@[simp] theorem readResult_seed (v : Option Word) (s : State) : (readResult v s).seed = s.seed := by
  obtain ⟨-, h⟩ | ⟨_, -, h⟩ := readResult_cases v s <;> simp [h]
@[simp] theorem readResult_accA (v : Option Word) (s : State) : (readResult v s).accA = s.accA := by
  obtain ⟨-, h⟩ | ⟨_, -, h⟩ := readResult_cases v s <;> simp [h]
@[simp] theorem readResult_accB (v : Option Word) (s : State) : (readResult v s).accB = s.accB := by
  obtain ⟨-, h⟩ | ⟨_, -, h⟩ := readResult_cases v s <;> simp [h]
@[simp] theorem readResult_size (v : Option Word) (s : State) : (readResult v s).size = s.size := by
  obtain ⟨-, h⟩ | ⟨_, -, h⟩ := readResult_cases v s <;> simp [h]

/-! The write column of R96, one register or field after the other. -/

/-- SEED, ACC_A and ACC_B are written by INIT, WRITE, WRITEI and CORE. -/
theorem exec_stream {i : Instr} {s t : State} (h : exec i s = .next t)
    (hi : i ∉ [Instr.init, .initDs, .write, .writei8, .writei16, .writei32, .writei64, .writei128, .core]) :
    t.seed = s.seed ∧ t.accA = s.accA ∧ t.accB = s.accB := by
  cases i with
  | nop | finish | mum | mix | evolve => cases h; exact ⟨rfl, rfl, rfl⟩
  | hash | hashDs => cases h; exact ⟨hashChunk_seed .., hashChunk_accA .., hashChunk_accB ..⟩
  | read32 | read64 => cases h; exact ⟨readResult_seed .., readResult_accA .., readResult_accB ..⟩
  | init | initDs | write | writei8 | writei16 | writei32 | writei64 | writei128 | core => simp at hi

/-- SIZE is written by INIT, WRITE and WRITEI. -/
theorem exec_size {i : Instr} {s t : State} (h : exec i s = .next t)
    (hi : i ∉ [Instr.init, .initDs, .write, .writei8, .writei16, .writei32, .writei64, .writei128]) :
    t.size = s.size := by
  cases i with
  | nop | finish | mum | mix | evolve => cases h; rfl
  | hash | hashDs => cases h; exact hashChunk_size ..
  | read32 | read64 => cases h; exact readResult_size ..
  | core => cases h; exact coreChunk_size ..
  | init | initDs | write | writei8 | writei16 | writei32 | writei64 | writei128 => simp at hi

/-- RES0 and RES1 are written by FINISH, HASH and the primitives that give a value. -/
theorem exec_result {i : Instr} {s t : State} (h : exec i s = .next t)
    (hi : i ∉ [Instr.finish, .hash, .hashDs, .mum, .mix, .evolve, .read32, .read64]) :
    t.res0 = s.res0 ∧ t.res1 = s.res1 := by
  cases i with
  | nop | init | initDs => cases h; exact ⟨rfl, rfl⟩
  | write | writei8 | writei16 | writei32 | writei64 | writei128 =>
    cases h; exact ⟨foldChunk_res0 .., foldChunk_res1 ..⟩
  | core => cases h; exact ⟨coreChunk_res0 .., coreChunk_res1 ..⟩
  | finish | hash | hashDs | mum | mix | evolve | read32 | read64 => simp at hi

/-- OVF is written by the commands that fold a chunk into the stream. -/
theorem exec_ovf {i : Instr} {s t : State} (h : exec i s = .next t)
    (hi : i ∉ [Instr.write, .writei8, .writei16, .writei32, .writei64, .writei128]) : t.ovf = s.ovf := by
  obtain hkeep | ⟨n, hn, -⟩ := exec_ovf_cases h
  · exact hkeep
  · exact absurd (List.mem_map_of_mem (f := Prod.fst) hn) hi

/-- BAND is written by the commands that run the core. -/
theorem exec_band {i : Instr} {s t : State} (h : exec i s = .next t)
    (hi : i ∉ [Instr.write, .writei8, .writei16, .writei32, .writei64, .writei128, .hash, .hashDs, .core]) :
    t.band = s.band := by
  obtain hkeep | ⟨n, hn, -⟩ := exec_band_cases h
  · exact hkeep
  · have hmem := mem_of_mem_coreLengths hn
    simp only [List.mem_cons, List.not_mem_nil] at hmem hi
    tauto

/-- A command that reads no chunk of IBUF meets no undefined byte: the bytes WRITEI folds are all defined (R205). -/
theorem exec_fault {i : Instr} {s t : State} (h : exec i s = .next t)
    (hi : i ∉ [Instr.write, .hash, .hashDs, .core, .read32, .read64]) :
    t.modelFault = s.modelFault ∧ t.draws = s.draws := by
  cases i with
  | nop | init | initDs | finish | mum | mix | evolve => cases h; exact ⟨rfl, rfl⟩
  | writei8 | writei16 | writei32 | writei64 | writei128 => cases h; simp
  | write | hash | hashDs | core | read32 | read64 => simp at hi

/-- Settles O59: the table's write column, register after register. -/
theorem commandsWriteOnlyWhatTheTableLists : Obligations.CommandsWriteOnlyWhatTheTableLists := by
  intro i s t h
  have hkeep := exec_sameOperands h
  exact ⟨hkeep.build, hkeep.fsm, hkeep.pend, hkeep.arg0, hkeep.arg1, hkeep.chunkOff, hkeep.chunkLen, hkeep.agenda,
    hkeep.returned, fun k => by rw [exec_ibuf h], exec_stream h, exec_size h, exec_result h, exec_ovf h, exec_band h,
    exec_err h, exec_fault h⟩

end Sys2Proof.Machine

/-! The statements of 40_mixing: the exact product of mum (R120, R121) and the fold of mix (R122, R123). -/

namespace Sys2Proof.Machine

/-! ### mum: the halves of the exact product (R120, R121) -/

@[simp] theorem toNat_mum_fst (a b : Word) : (mum a b).1.toNat = a.toNat * b.toNat % 2 ^ 64 :=
  BitVec.toNat_ofNat ..

/-- The high half fits in a word, so nothing is cut off. -/
@[simp] theorem toNat_mum_snd (a b : Word) : (mum a b).2.toNat = a.toNat * b.toNat / 2 ^ 64 := by
  have hprod : a.toNat * b.toNat < 2 ^ 64 * 2 ^ 64 := Nat.mul_lt_mul'' a.isLt b.isLt
  exact (BitVec.toNat_ofNat ..).trans (Nat.mod_eq_of_lt (Nat.div_lt_of_lt_mul hprod))

/-- The two halves make up the exact product. -/
theorem mum_exact (a b : Word) : (mum a b).1.toNat + (mum a b).2.toNat * 2 ^ 64 = a.toNat * b.toNat := by
  rw [toNat_mum_fst, toNat_mum_snd, Nat.mod_add_div']

/-- Two words that make up the product are its halves: a number has one low and one high digit in base 2^64. -/
theorem mum_eq_of_exact {a b lo hi : Word} (h : lo.toNat + hi.toNat * 2 ^ 64 = a.toNat * b.toNat) :
    mum a b = (lo, hi) := by
  have hlt : lo.toNat < 2 ^ 64 := lo.isLt
  ext1 <;> apply BitVec.eq_of_toNat_eq
  · rw [toNat_mum_fst, ← h, Nat.add_mul_mod_self_right, Nat.mod_eq_of_lt hlt]
  · rw [toNat_mum_snd, ← h, Nat.add_mul_div_right _ _ (by decide), Nat.div_eq_of_lt hlt, Nat.zero_add]

theorem mum_comm (a b : Word) : mum a b = mum b a :=
  mum_eq_of_exact ((mum_exact b a).trans (Nat.mul_comm ..))

theorem mum_zero_left (x : Word) : mum 0 x = (0, 0) := mum_eq_of_exact (by simp)

theorem mum_one_left (x : Word) : mum 1 x = (x, 0) := mum_eq_of_exact (by simp)

/-- R121's largest product: each operand is at most 2^64 - 1, so the high half is at most 2^64 - 2. -/
theorem toNat_mum_snd_le (a b : Word) : (mum a b).2.toNat ≤ 2 ^ 64 - 2 := by
  have hprod : a.toNat * b.toNat ≤ (2 ^ 64 - 1) * (2 ^ 64 - 1) :=
    Nat.mul_le_mul (Nat.le_pred_of_lt a.isLt) (Nat.le_pred_of_lt b.isLt)
  have hexact := mum_exact a b
  omega

/-- Settles O32: the exact product, and R121's corner cases. -/
theorem mumIsTheExactProduct : Obligations.MumIsTheExactProduct :=
  ⟨mum_exact, mum_comm, mum_zero_left, mum_one_left, mum_eq_of_exact (by decide), mum_eq_of_exact (by decide),
    toNat_mum_snd_le⟩

/-! ### mix: the fold of the halves (R122, R123) -/

/-- The fold of any two words that make up the product. -/
theorem mix_eq_of_exact {a b lo hi : Word} (h : lo.toNat + hi.toNat * 2 ^ 64 = a.toNat * b.toNat) :
    mix a b = lo ^^^ hi := by
  rw [mix, mum_eq_of_exact h]

theorem mix_comm (a b : Word) : mix a b = mix b a := by
  rw [mix, mix, mum_comm]

theorem mix_zero_left (x : Word) : mix 0 x = 0 := by
  rw [mix, mum_zero_left]; exact BitVec.xor_self

theorem mix_one_left (x : Word) : mix 1 x = x := by
  rw [mix, mum_one_left]; exact BitVec.xor_zero

/-- A zero operand destroys the other one: (0, 0) and (0, 1) have one image. -/
theorem mix_not_injective : ¬ Function.Injective (fun p : Word × Word => mix p.1 p.2) := by
  intro hinj
  have hpair : ((0, 0) : Word × Word) = (0, 1) := hinj ((mix_zero_left 0).trans (mix_zero_left 1).symm)
  exact absurd hpair (by decide)

/-- Settles O33: the XOR of the exact halves, and R123's corner cases. -/
theorem mixFoldsTheProduct : Obligations.MixFoldsTheProduct :=
  ⟨fun _ _ _ _ h => mix_eq_of_exact h, mix_comm, mix_zero_left, mix_one_left, by decide, by decide, by decide,
    mix_not_injective⟩

end Sys2Proof.Machine

/-! The statements of 41_readers: the placement of combine32 (R132), and the readers as little-endian values of a chunk (R130, R131). -/

namespace Sys2Proof.Machine

/-! ### combine32: two halves side by side (R132) -/

/-- Shifting one half up and OR-ing the other in is putting them side by side. -/
theorem combine32_eq_append (hi lo : Half) : combine32 hi lo = hi ++ lo := by
  rw [← BitVec.setWidth_eq (hi ++ lo), BitVec.setWidth_append_eq_shiftLeft_setWidth_or, combine32]

theorem combine32_high (hi lo : Half) : (combine32 hi lo).extractLsb' 32 32 = hi := by
  rw [combine32_eq_append, BitVec.extractLsb'_append_eq_left]

theorem combine32_low (hi lo : Half) : (combine32 hi lo).extractLsb' 0 32 = lo := by
  rw [combine32_eq_append, BitVec.extractLsb'_append_eq_right]

theorem toNat_combine32 (hi lo : Half) : (combine32 hi lo).toNat = hi.toNat * 2 ^ 32 + lo.toNat := by
  rw [combine32_eq_append, BitVec.toNat_append, ← Nat.shiftLeft_add_eq_or_of_lt lo.isLt, Nat.shiftLeft_eq]

/-- Settles O37: the halves lie side by side, and R132's example. -/
theorem combineThirtyTwoPlacesTheHalves : Obligations.CombineThirtyTwoPlacesTheHalves :=
  ⟨toNat_combine32, fun hi lo => ⟨combine32_high hi lo, combine32_low hi lo⟩, by decide⟩

/-! ### The readers (R130, R131) -/

/-- The bytes of a second list count above those of the first. -/
theorem leNat_append (low high : List Byte) :
    leNat (low ++ high) = leNat low + 256 ^ low.length * leNat high := by
  induction low with
  | nil => simp
  | cons b rest ih =>
    rw [List.cons_append, leNat_cons, ih, leNat_cons, List.length_cons]
    ring

/-- A read in two parts: the second part starts where the first one ends, and counts above it. -/
theorem memRead_add (c : Chunk) (site o m n : Nat) :
    c.memRead site o (m + n) = c.memRead site o m + 2 ^ (8 * m) * c.memRead site (o + m) n := by
  have hbase : 2 ^ (8 * m) = 256 ^ m := pow_mul 2 8 m
  simp only [hbase, Chunk.memRead, List.range_add, List.map_append, List.map_map, leNat_append, List.length_map,
    List.length_range, Function.comp_def, Nat.add_assoc]

/-- The eight bytes of a 64-bit read are those of two 32-bit reads, the later one on top. -/
theorem memRead_eight_eq_combine32 (c : Chunk) (site o : Nat) :
    BitVec.ofNat 64 (c.memRead site o 8)
      = combine32 (BitVec.ofNat 32 (c.memRead site (o + 4) 4)) (BitVec.ofNat 32 (c.memRead site o 4)) := by
  have hlow := memRead_lt c site o 4
  have hhigh := memRead_lt c site (o + 4) 4
  apply BitVec.eq_of_toNat_eq
  rw [toNat_combine32, BitVec.toNat_ofNat, BitVec.toNat_ofNat, BitVec.toNat_ofNat, memRead_add c site o 4 4]
  omega

/-- Byte `j` of a half word is that byte of the word it is cut from. -/
theorem extract_memRead_half (c : Chunk) (site o : Nat) {j : Nat} (hj : j < 4) :
    (BitVec.ofNat 32 (c.memRead site o 4)).extractLsb' (8 * j) 8 = c.byteAt site (o + j) := by
  rw [← BitVec.setWidth_ofNat_of_le (show 32 ≤ 64 by decide), BitVec.extractLsb'_setWidth_of_le (by omega),
    extract_memRead c site o hj (by decide)]

/-- A byte inside a defined chunk is the list's. -/
theorem some_byteAt_map_some {data : List Byte} {i : Nat} (d site : Nat) (hi : i < data.length) :
    some ((⟨data.map some, d⟩ : Chunk).byteAt site i) = data[i]? := by
  rw [List.getElem?_eq_getElem hi, byteAt_map_some (List.getElem?_eq_getElem hi)]

/-- A 64-bit read inside a defined chunk: its bytes in order, and its halves (R131). -/
theorem rd64_map_some {data : List Byte} {o : Nat} (d site : Nat) (h : o + 8 ≤ data.length) :
    ∃ v : Word, (⟨data.map some, d⟩ : Chunk).rd64 site o = some v ∧
      (∀ i < 8, some (v.extractLsb' (8 * i) 8) = data[o + i]?) ∧
      (⟨data.map some, d⟩ : Chunk).rd32 site o = some (v.extractLsb' 0 32) ∧
      (⟨data.map some, d⟩ : Chunk).rd32 site (o + 4) = some (v.extractLsb' 32 32) := by
  have hlen := len_map_some data d
  refine ⟨_, rd64_of_le (by omega), fun i hi => ?_, ?_, ?_⟩
  · rw [extract_memRead _ site o hi le_rfl, some_byteAt_map_some d site (by omega)]
  · rw [memRead_eight_eq_combine32, combine32_low, rd32_of_le (by omega)]
  · rw [memRead_eight_eq_combine32, combine32_high, rd32_of_le (by omega)]

/-- A 32-bit read inside a defined chunk: its bytes in order (R130). -/
theorem rd32_map_some {data : List Byte} {o : Nat} (d site : Nat) (h : o + 4 ≤ data.length) :
    ∃ v : Half, (⟨data.map some, d⟩ : Chunk).rd32 site o = some v ∧
      ∀ i < 4, some (v.extractLsb' (8 * i) 8) = data[o + i]? := by
  refine ⟨_, rd32_of_le (by rwa [len_map_some]), fun i hi => ?_⟩
  rw [extract_memRead_half _ site o hi, some_byteAt_map_some d site (by omega)]

/-- Settles O36: the bytes and halves of a read inside the chunk, and no answer past its end. -/
theorem readersAreLittleEndian : Obligations.ReadersAreLittleEndian :=
  ⟨fun _ d site _ h => rd64_map_some d site h, fun _ d site _ h => rd32_map_some d site h,
    fun _ _ _ => ⟨rd64_of_lt, rd32_of_lt⟩⟩

end Sys2Proof.Machine

/-! The statement of 42_seed_evolution: `evolve_seed` and its corner cases (R140, R142). -/

namespace Sys2Proof.Machine

theorem evolveSeed_eq (b : Build) (s n : Word) :
    evolveSeed b s n = s ^^^ mix (s ^^^ b.secret0) b.secret1 ^^^ n := by
  rfl

theorem evolveSeed_zero_count (b : Build) (s : Word) :
    evolveSeed b s 0 = s ^^^ mix (s ^^^ b.secret0) b.secret1 := by
  rw [evolveSeed_eq]; exact BitVec.xor_zero

/-- The count only toggles bits: it never enters the mix, so it comes out of `evolve_seed` as one last XOR. -/
theorem evolveSeed_eq_zero_count_xor (b : Build) (s n : Word) : evolveSeed b s n = evolveSeed b s 0 ^^^ n := by
  rw [evolveSeed_zero_count, evolveSeed_eq]

/-- Under one seed two counts give seeds that differ in the counts' bits: the common part cancels. -/
theorem evolveSeed_xor_evolveSeed (b : Build) (s n m : Word) :
    evolveSeed b s n ^^^ evolveSeed b s m = n ^^^ m := by
  rw [evolveSeed_eq_zero_count_xor b s n, evolveSeed_eq_zero_count_xor b s m, BitVec.xor_comm (evolveSeed b s 0) n,
    BitVec.xor_assoc, ← BitVec.xor_assoc (evolveSeed b s 0), BitVec.xor_self, BitVec.zero_xor]

/-- The first secret as the seed cancels in the mix, whose zero operand leaves no mix term. -/
theorem evolveSeed_secret0 (b : Build) (n : Word) : evolveSeed b b.secret0 n = b.secret0 ^^^ n := by
  have hmix : mix (b.secret0 ^^^ b.secret0) b.secret1 = 0 := by
    rw [BitVec.xor_self]; exact mix_zero_left b.secret1
  rw [evolveSeed_eq, hmix]; exact congrArg (· ^^^ n) BitVec.xor_zero

/-- Settles O34: the count enters by the last XOR alone, and R142's corner cases. -/
theorem evolveTakesTheCountByXor : Obligations.EvolveTakesTheCountByXor :=
  ⟨evolveSeed_eq, evolveSeed_xor_evolveSeed, evolveSeed_zero_count, evolveSeed_secret0⟩

end Sys2Proof.Machine

/-! The statements of 43_compression: no read leaves the chunk (R163), the engine computes the pseudocode (R150), the band steps of at most 16 bytes (R151 to R154), and the classes and the path by length (R162, R165). -/

/-! ### The path by length (R162, R165) -/

namespace Sys2Proof.Machine

/-- The nine classes with the range of lengths of each (R162). The ranges do not meet, so each class determines its own. -/
theorem bandClass_cases (n : Nat) :
    (bandClass n = 0 ∧ n = 0) ∨ (bandClass n = 1 ∧ 1 ≤ n ∧ n ≤ 3) ∨ (bandClass n = 2 ∧ 4 ≤ n ∧ n ≤ 7) ∨
    (bandClass n = 3 ∧ 8 ≤ n ∧ n ≤ 15) ∨ (bandClass n = 4 ∧ n = 16) ∨ (bandClass n = 5 ∧ 17 ≤ n ∧ n ≤ 32) ∨
    (bandClass n = 6 ∧ 33 ≤ n ∧ n ≤ 48) ∨ (bandClass n = 7 ∧ 49 ≤ n ∧ n ≤ 95) ∨ (bandClass n = 8 ∧ 96 ≤ n) := by
  unfold bandClass
  split_ifs <;> omega

/-- The bulk stage takes the whole super-blocks of 96 bytes and then 48 bytes more if it can (R156, R157). -/
theorem sub_bulkEnd {n : Nat} (h : 48 < n) :
    n - bulkEnd n = if 48 ≤ n % 96 then n % 96 - 48 else n % 96 := by
  unfold bulkEnd
  split_ifs <;> omega

/-- Less than a round of 48 bytes is left. -/
theorem sub_bulkEnd_lt {n : Nat} (h : 48 < n) : n - bulkEnd n < 48 := by
  rw [sub_bulkEnd h]
  split_ifs <;> omega

/-- Settles O41: the classes by their ranges, and the remainder of the bulk stage. -/
theorem bandClassesAndPathByLength : Obligations.BandClassesAndPathByLength := by
  refine ⟨fun n => ?_, fun n => ?_, fun n => ?_, fun n => ?_, fun n => ?_, fun n => ?_, fun n => ?_, fun n => ?_,
    fun n => ?_, bandClass_le, fun n h => ⟨sub_bulkEnd h, sub_bulkEnd_lt h, bulkEnd_le n⟩⟩ <;>
  · have hclass := bandClass_cases n
    omega

/-! ### No read leaves the chunk (R163) -/

/-- Settles O38: the engine answers for every chunk. -/
theorem coreNeverReadsOutsideTheChunk : Obligations.CoreNeverReadsOutsideTheChunk := fun b c x y seed =>
  let ⟨_, _, _, h⟩ := compress_answers b c x y seed
  Option.isSome_of_eq_some h

/-! ### The readers of a defined chunk, as the pseudocode's (R130, R131, R135) -/

section Defined

variable {data : List Byte} {d : Nat}

/-- A byte inside a defined chunk is the pseudocode's `data[o]`. -/
theorem toNat_byteAt_map_some (site : Nat) {o : Nat} (h : o < data.length) :
    ((⟨data.map some, d⟩ : Chunk).byteAt site o).toNat = Reference.byteAt data o := by
  rw [byteAt_map_some (List.getElem?_eq_getElem h), Reference.byteAt, List.getD_eq_getElem _ _ h]

/-- A read takes its lowest byte and then the bytes above. -/
theorem memRead_succ (c : Chunk) (site o n : Nat) :
    c.memRead site o (n + 1) = (c.byteAt site o).toNat + 256 * c.memRead site (o + 1) n := by
  rw [Nat.add_comm n 1, memRead_add]
  simp [Chunk.memRead]

@[simp] theorem memRead_zero (c : Chunk) (site o : Nat) : c.memRead site o 0 = 0 := rfl

/-- Four bytes of a defined chunk are the pseudocode's half word. -/
theorem memRead_four_map_some (site : Nat) {o : Nat} (h : o + 4 ≤ data.length) :
    (⟨data.map some, d⟩ : Chunk).memRead site o 4 = Reference.rd32 data o := by
  simp only [memRead_succ, memRead_zero, Reference.rd32, Nat.add_assoc, Nat.reduceAdd]
  rw [toNat_byteAt_map_some site (o := o) (by omega), toNat_byteAt_map_some site (o := o + 1) (by omega),
    toNat_byteAt_map_some site (o := o + 2) (by omega), toNat_byteAt_map_some site (o := o + 3) (by omega)]
  omega

/-- The pseudocode's 64-bit read is two of its 32-bit reads, the later one on top (R131). -/
theorem reference_rd64_eq_halves (data : List Byte) (o : Nat) :
    Reference.rd64 data o = Reference.rd32 data o + 2 ^ 32 * Reference.rd32 data (o + 4) := by
  simp only [Reference.rd64, Reference.rd32, Nat.add_assoc, Nat.reduceAdd]
  omega

theorem rd8_eq_reference (site : Nat) {o : Nat} (h : o < data.length) :
    ∃ v : Word, (⟨data.map some, d⟩ : Chunk).rd8 site o = some v ∧ v.toNat = Reference.byteAt data o := by
  refine ⟨_, rd8_of_lt (by rwa [len_map_some]), ?_⟩
  have hlt := memRead_lt ⟨data.map some, d⟩ site o 1
  rw [BitVec.toNat_ofNat, Nat.mod_eq_of_lt (by omega), memRead_succ, memRead_zero, toNat_byteAt_map_some site h]
  rfl

theorem rd32_eq_reference (site : Nat) {o : Nat} (h : o + 4 ≤ data.length) :
    ∃ v : Half, (⟨data.map some, d⟩ : Chunk).rd32 site o = some v ∧ v.toNat = Reference.rd32 data o := by
  refine ⟨_, rd32_of_le (by rwa [len_map_some]), ?_⟩
  rw [BitVec.toNat_ofNat, Nat.mod_eq_of_lt (memRead_lt ..), memRead_four_map_some site h]

theorem rd64_eq_reference (site : Nat) {o : Nat} (h : o + 8 ≤ data.length) :
    ∃ v : Word, (⟨data.map some, d⟩ : Chunk).rd64 site o = some v ∧ v.toNat = Reference.rd64 data o := by
  refine ⟨_, rd64_of_le (by rwa [len_map_some]), ?_⟩
  rw [BitVec.toNat_ofNat, Nat.mod_eq_of_lt (memRead_lt ..), memRead_add _ site o 4 4, memRead_four_map_some site (by omega),
    memRead_four_map_some site (by omega), reference_rd64_eq_halves]

end Defined

/-! ### The band steps of at most 16 bytes (R151 to R154), and the final step (R161) -/

section Defined

variable {data : List Byte} {d : Nat}

/-- Three bytes OR-ed into a word at bits 56, 32 and 0 do not overlap, so they add up. -/
theorem toNat_threeBytes {x y z : Word} (hx : x.toNat < 2 ^ 8) (hy : y.toNat < 2 ^ 8) (hz : z.toNat < 2 ^ 8) :
    ((x <<< 56) ||| (y <<< 32) ||| z).toNat = x.toNat * 2 ^ 56 + y.toNat * 2 ^ 32 + z.toNat := by
  have hxs : x.toNat <<< 56 % 2 ^ 64 = x.toNat <<< 56 := Nat.mod_eq_of_lt (by omega)
  have hys : y.toNat <<< 32 % 2 ^ 64 = y.toNat <<< 32 := Nat.mod_eq_of_lt (by omega)
  rw [BitVec.or_assoc, BitVec.toNat_or, BitVec.toNat_or, BitVec.toNat_shiftLeft, BitVec.toNat_shiftLeft, hxs, hys,
    ← Nat.shiftLeft_add_eq_or_of_lt (show z.toNat < 2 ^ 32 by omega),
    ← Nat.shiftLeft_add_eq_or_of_lt (show y.toNat <<< 32 + z.toNat < 2 ^ 56 by omega)]
  omega

theorem byteAt_lt (data : List Byte) (o : Nat) : Reference.byteAt data o < 2 ^ 8 := BitVec.isLt _

/-- Band 1 puts the first, the middle and the last byte into one word (R152). -/
theorem band1Word_eq_reference (h : 1 ≤ data.length) :
    ∃ w : Word, band1Word ⟨data.map some, d⟩ = some w ∧
      w.toNat = Reference.byteAt data 0 * 2 ^ 56 + Reference.byteAt data (data.length / 2) * 2 ^ 32
        + Reference.byteAt data (data.length - 1) := by
  obtain ⟨first, hfirst, hfirstNat⟩ := rd8_eq_reference (d := d) 0 (show 0 < data.length by omega)
  obtain ⟨mid, hmid, hmidNat⟩ := rd8_eq_reference (d := d) 1 (show data.length / 2 < data.length by omega)
  obtain ⟨last, hlast, hlastNat⟩ := rd8_eq_reference (d := d) 2 (show data.length - 1 < data.length by omega)
  refine ⟨(first <<< 56) ||| (mid <<< 32) ||| last, by simp [band1Word, hfirst, hmid, hlast], ?_⟩
  rw [← hfirstNat, ← hmidNat, ← hlastNat]
  exact toNat_threeBytes (hfirstNat ▸ byteAt_lt ..) (hmidNat ▸ byteAt_lt ..) (hlastNat ▸ byteAt_lt ..)

/-- Bands 2 to 4 put two half words into each of two words (R153, R154). -/
theorem band234Words_eq_reference (h : 4 ≤ data.length) :
    ∃ w z : Word, band234Words ⟨data.map some, d⟩ = some (w, z) ∧
      w.toNat = Reference.combine32 (Reference.rd32 data 0) (Reference.rd32 data (data.length - 4)) ∧
      z.toNat = Reference.combine32 (Reference.rd32 data (bandDelta data.length))
        (Reference.rd32 data (data.length - 4 - bandDelta data.length)) := by
  have hdelta : bandDelta data.length + 4 ≤ data.length := by
    unfold bandDelta
    split <;> omega
  obtain ⟨aHi, haHi, haHiNat⟩ := rd32_eq_reference (d := d) 0 (show 0 + 4 ≤ data.length by omega)
  obtain ⟨aLo, haLo, haLoNat⟩ := rd32_eq_reference (d := d) 1 (show data.length - 4 + 4 ≤ data.length by omega)
  obtain ⟨bHi, hbHi, hbHiNat⟩ := rd32_eq_reference (d := d) 2 hdelta
  obtain ⟨bLo, hbLo, hbLoNat⟩ :=
    rd32_eq_reference (d := d) 3 (show data.length - 4 - bandDelta data.length + 4 ≤ data.length by omega)
  refine ⟨combine32 aHi aLo, combine32 bHi bLo, by simp [band234Words, haHi, haLo, hbHi, hbLo], ?_, ?_⟩
  · rw [toNat_combine32, haHiNat, haLoNat, Reference.combine32]
  · rw [toNat_combine32, hbHiNat, hbLoNat, Reference.combine32]

/-- Each byte of a defined chunk is recovered from its number. -/
theorem some_eq_getElem?_of_toNat {b : Byte} {o : Nat} (h : o < data.length)
    (hb : b.toNat = Reference.byteAt data o) : some b = data[o]? := by
  rw [List.getElem?_eq_getElem h, Option.some_inj]
  exact BitVec.eq_of_toNat_eq (by rw [hb, Reference.byteAt, List.getD_eq_getElem _ _ h])

/-- What the fields of a word hold that is three bytes at bits 56, 32 and 0: the bytes, and 0 between them. -/
theorem fields_of_threeBytes {w : Word} {x y z : Nat} (hy : y < 2 ^ 8) (hz : z < 2 ^ 8)
    (hw : w.toNat = x * 2 ^ 56 + y * 2 ^ 32 + z) :
    (w.extractLsb' 56 8).toNat = x ∧ (w.extractLsb' 32 8).toNat = y ∧ (w.extractLsb' 0 8).toNat = z ∧
      (w.extractLsb' 8 24).toNat = 0 ∧ (w.extractLsb' 40 16).toNat = 0 := by
  simp only [BitVec.extractLsb'_toNat, hw, Nat.shiftRight_eq_div_pow]
  omega

end Defined

/-! What each length makes of the band step. -/

theorem shortStep_of_len_zero {c : Chunk} (x y : Word) (h : c.len = 0) : shortStep c x y = some (x, y) := by
  rw [shortStep, if_pos h]

theorem shortStep_of_band1 {c : Chunk} {w : Word} (x y : Word) (hpos : 1 ≤ c.len) (hle : c.len ≤ 3)
    (hw : band1Word c = some w) : shortStep c x y = some (x ^^^ w, y) := by
  rw [shortStep, if_neg (by omega), if_pos (by omega), hw]
  rfl

theorem shortStep_of_band234 {c : Chunk} {w z : Word} (x y : Word) (h : 4 ≤ c.len)
    (hwz : band234Words c = some (w, z)) : shortStep c x y = some (x ^^^ w, y ^^^ z) := by
  rw [shortStep, if_neg (by omega), if_neg (by omega), hwz]
  rfl

/-- The engine ends with the final step (R161). -/
theorem compress_of_bandStep {b : Build} {c : Chunk} {x y seed : Word} {r : Word × Word × Word}
    (h : bandStep b c x y seed = some r) : compress b c x y seed = some (finalStep b r) := by
  rw [compress, h]
  rfl

/-- Chunks of at most 16 bytes leave the seed as it is. -/
theorem bandStep_of_shortStep {b : Build} {c : Chunk} {x y x' y' : Word} (seed : Word) (h : c.len ≤ 16)
    (hr : shortStep c x y = some (x', y')) : bandStep b c x y seed = some (x', y', seed) := by
  rw [bandStep, if_pos h, hr]
  rfl

/-- Settles O40: the words of each band, and the final step on what they leave. -/
theorem shortBandSteps : Obligations.ShortBandSteps := by
  refine ⟨fun c x y h => shortStep_of_len_zero x y h, fun data d x y hpos hle => ?_, fun data d x y hpos hle => ?_,
    fun data d x y hpos hle => ?_, fun b c x y seed h => ?_⟩
  · obtain ⟨w, hw, hwNat⟩ := band1Word_eq_reference (d := d) hpos
    obtain ⟨hfirst, hmid, hlast, hgap, hgap'⟩ := fields_of_threeBytes (byteAt_lt ..) (byteAt_lt ..) hwNat
    exact ⟨w, shortStep_of_band1 x y (by rwa [len_map_some]) (by rwa [len_map_some]) hw,
      some_eq_getElem?_of_toNat (by omega) hfirst, some_eq_getElem?_of_toNat (by omega) hmid,
      some_eq_getElem?_of_toNat (by omega) hlast, BitVec.eq_of_toNat_eq hgap, BitVec.eq_of_toNat_eq hgap'⟩
  · obtain ⟨w, z, hwz, hw, hz⟩ := band234Words_eq_reference (d := d) hpos
    have hdelta : bandDelta data.length = 0 := if_neg (by omega)
    obtain rfl : z = w := BitVec.eq_of_toNat_eq (by rw [hz, hw, hdelta, Nat.sub_zero])
    exact ⟨z, shortStep_of_band234 x y (by rwa [len_map_some]) hwz, hw⟩
  · obtain ⟨w, z, hwz, hw, hz⟩ := band234Words_eq_reference (d := d) (show 4 ≤ data.length by omega)
    have hdelta : bandDelta data.length = 4 := if_pos hpos
    rw [hdelta, Nat.sub_sub] at hz
    exact ⟨w, z, shortStep_of_band234 x y (by rw [len_map_some]; omega) hwz, hw, hz⟩
  · obtain ⟨⟨x', y'⟩, hr⟩ := shortStep_answers c x y
    exact ⟨(x', y'), hr, compress_of_bandStep (bandStep_of_shortStep seed h hr)⟩

/-! ### The engine computes the pseudocode (R150) -/

@[simp] theorem toNat_mix (a b : Word) : (mix a b).toNat = Reference.mix a.toNat b.toNat := by
  rw [mix, BitVec.toNat_xor, toNat_mum_fst, toNat_mum_snd, Reference.mix, Reference.mum]

@[simp] theorem secret_zero (b : Build) : Reference.secret b 0 = b.secret0.toNat := rfl
@[simp] theorem secret_one (b : Build) : Reference.secret b 1 = b.secret1.toNat := rfl
@[simp] theorem secret_two (b : Build) : Reference.secret b 2 = b.secret2.toNat := rfl

/-- The variables of the pseudocode that the lanes stand for, at position `p` with `i` bytes left. -/
def Lanes.vars (l : Lanes) (p i : Nat) : Reference.Vars := ⟨l.seed.toNat, l.see1.toNat, l.see2.toNat, p, i⟩

@[simp] theorem vars_seed (l : Lanes) (p i : Nat) : (l.vars p i).seed = l.seed.toNat := rfl
@[simp] theorem vars_see1 (l : Lanes) (p i : Nat) : (l.vars p i).see1 = l.see1.toNat := rfl
@[simp] theorem vars_see2 (l : Lanes) (p i : Nat) : (l.vars p i).see2 = l.see2.toNat := rfl
@[simp] theorem vars_p (l : Lanes) (p i : Nat) : (l.vars p i).p = p := rfl
@[simp] theorem vars_i (l : Lanes) (p i : Nat) : (l.vars p i).i = i := rfl

/-- Three words as the numbers of the pseudocode. -/
def numbers (r : Word × Word × Word) : Nat × Nat × Nat := (r.1.toNat, r.2.1.toNat, r.2.2.toNat)

/-- The final step in numbers (R161). -/
def finalNumbers (b : Build) (r : Nat × Nat × Nat) : Nat × Nat × Nat :=
  let product := Reference.mum (r.1 ^^^ Reference.secret b 1) (r.2.1 ^^^ r.2.2)
  (product.1, product.2, r.2.2)

theorem numbers_finalStep (b : Build) (r : Word × Word × Word) :
    numbers (finalStep b r) = finalNumbers b (numbers r) := by
  simp [numbers, finalStep, finalNumbers, Reference.mum]

theorem toNat_foldLanes (l : Lanes) : (foldLanes l).toNat = l.seed.toNat ^^^ l.see1.toNat ^^^ l.see2.toNat := by
  rw [foldLanes, BitVec.toNat_xor, BitVec.toNat_xor]

section Defined

variable (b : Build) {data : List Byte} {d : Nat}

/-- A lane step reads the pseudocode's two words. -/
theorem laneStep_eq_reference (secret lane : Word) {q : Nat} (h : q + 16 ≤ data.length) :
    ∃ x, laneStep ⟨data.map some, d⟩ q secret lane = some x ∧
      x.toNat
        = Reference.mix (Reference.rd64 data q ^^^ secret.toNat) (Reference.rd64 data (q + 8) ^^^ lane.toNat) := by
  obtain ⟨lo, hlo, hloNat⟩ := rd64_eq_reference (d := d) 0 (show q + 8 ≤ data.length by omega)
  obtain ⟨hi, hhi, hhiNat⟩ := rd64_eq_reference (d := d) 0 (show q + 8 + 8 ≤ data.length by omega)
  exact ⟨mix (lo ^^^ secret) (hi ^^^ lane), by simp [laneStep, hlo, hhi], by simp [hloNat, hhiNat]⟩

/-- A round of 48 bytes is the pseudocode's three lane steps. -/
theorem round48_eq_reference (l : Lanes) {p : Nat} (i : Nat) (h : p + 48 ≤ data.length) :
    ∃ l', round48 b ⟨data.map some, d⟩ p l = some l' ∧
      l'.vars (p + 48) (i - 48) = Reference.threeLanes b data (l.vars p i) := by
  obtain ⟨x, hx, hxNat⟩ := laneStep_eq_reference (d := d) b.secret0 l.seed (show p + 16 ≤ data.length by omega)
  obtain ⟨y, hy, hyNat⟩ := laneStep_eq_reference (d := d) b.secret1 l.see1 (show p + 16 + 16 ≤ data.length by omega)
  obtain ⟨z, hz, hzNat⟩ := laneStep_eq_reference (d := d) b.secret2 l.see2 (show p + 32 + 16 ≤ data.length by omega)
  refine ⟨⟨x, y, z⟩, by simp [round48, hx, hy, hz], ?_⟩
  simp [Lanes.vars, Reference.threeLanes, hxNat, hyNat, hzNat, Nat.add_assoc]

/-- A super-block is two rounds. -/
theorem superBlock_eq_reference (l : Lanes) {p : Nat} (i : Nat) (h : p + 96 ≤ data.length) :
    ∃ l', superBlock b ⟨data.map some, d⟩ p l = some l' ∧
      l'.vars (p + 96) (i - 96) = Reference.threeLanes b data (Reference.threeLanes b data (l.vars p i)) := by
  obtain ⟨half, hhalf, hhalfVars⟩ := round48_eq_reference b (d := d) l i (show p + 48 ≤ data.length by omega)
  obtain ⟨l', hl', hlVars⟩ :=
    round48_eq_reference b (d := d) half (i - 48) (show p + 48 + 48 ≤ data.length by omega)
  refine ⟨l', by simp [superBlock, hhalf, hl'], ?_⟩
  rw [← hhalfVars, ← hlVars, Nat.add_assoc, Nat.sub_sub]

/-- The loop over `i / 96` super-blocks is the pseudocode's `while i >= 96`, once the fuel is enough for its turns. -/
theorem bulkLoop_eq_reference (q : Nat) (l : Lanes) {p i fuel : Nat} (hq : i / 96 = q) (hfuel : q ≤ fuel)
    (h : p + i ≤ data.length) :
    ∃ l', bulkLoop b ⟨data.map some, d⟩ q p l = some l' ∧
      l'.vars (p + 96 * q) (i - 96 * q) = Reference.whileBulk b data fuel (l.vars p i) := by
  induction q generalizing l p i fuel with
  | zero =>
    refine ⟨l, rfl, ?_⟩
    cases fuel with
    | zero => rfl
    | succ fuel => exact (if_neg (show ¬ 96 ≤ i by omega)).symm
  | succ q ih =>
    obtain _ | fuel := fuel
    · omega
    obtain ⟨next, hnext, hnextVars⟩ := superBlock_eq_reference b (d := d) l i (show p + 96 ≤ data.length by omega)
    obtain ⟨l', hl', hlVars⟩ := ih next (p := p + 96) (i := i - 96) (fuel := fuel) (by omega) (by omega) (by omega)
    refine ⟨l', by simp [bulkLoop, hnext, hl'], ?_⟩
    have hturn : Reference.whileBulk b data (fuel + 1) (l.vars p i)
        = Reference.whileBulk b data fuel (next.vars (p + 96) (i - 96)) := by
      rw [hnextVars]
      exact if_pos (show 96 ≤ i by omega)
    rw [hturn, ← hlVars, Nat.mul_add_one, Nat.add_comm (96 * q), Nat.add_assoc, Nat.sub_sub]

/-- The bulk stage leaves the pseudocode's seed, and `p` and `i` where the path by length says. -/
theorem bulkStage_eq_reference (seed : Word) :
    ∃ x, bulkStage b ⟨data.map some, d⟩ seed = some x ∧
      ∃ see1 see2, Reference.bulk b data ⟨seed.toNat, 0, 0, 0, data.length⟩
        = ⟨x.toNat, see1, see2, bulkEnd data.length, data.length - bulkEnd data.length⟩ := by
  by_cases hbulk : 48 < data.length
  · have hleft : data.length - 96 * (data.length / 96) = data.length % 96 := by omega
    obtain ⟨l, hl, hlVars⟩ := bulkLoop_eq_reference b (data := data) (d := d) (data.length / 96) ⟨seed, seed, seed⟩
      (p := 0) (i := data.length) rfl (Nat.div_le_self ..) (by omega)
    rw [Nat.zero_add, hleft] at hlVars
    have hwhile : Reference.whileBulk b data data.length ⟨seed.toNat, seed.toNat, seed.toNat, 0, data.length⟩
        = l.vars (96 * (data.length / 96)) (data.length % 96) := hlVars.symm
    by_cases hround : 48 ≤ data.length % 96
    · obtain ⟨l', hl', hlVars'⟩ := round48_eq_reference b (data := data) (d := d) l (p := 96 * (data.length / 96))
        (data.length % 96) (by omega)
      refine ⟨foldLanes l', by simp [bulkStage, hbulk, hround, hl, hl'], l'.see1.toNat, l'.see2.toNat, ?_⟩
      have hleft' : data.length - (96 * (data.length / 96) + 48) = data.length % 96 - 48 := by omega
      simp [Reference.bulk, bulkEnd, hbulk, hwhile, hround, ← hlVars', toNat_foldLanes, hleft']
    · refine ⟨foldLanes l, by simp [bulkStage, hbulk, hround, hl], l.see1.toNat, l.see2.toNat, ?_⟩
      simp [Reference.bulk, bulkEnd, hbulk, hwhile, hround, toNat_foldLanes, hleft]
  · refine ⟨seed, by simp [bulkStage, hbulk], 0, 0, ?_⟩
    simp [Reference.bulk, bulkEnd, hbulk]

/-- The tail rounds leave the pseudocode's seed. -/
theorem tailRounds_eq_reference (seed : Word) (see1 see2 : Nat) {p i : Nat} (h : p + i ≤ data.length) :
    ∃ x, tailRounds b ⟨data.map some, d⟩ p i seed = some x ∧
      x.toNat = Reference.tail b data ⟨seed.toNat, see1, see2, p, i⟩ := by
  by_cases hfirst : 16 < i
  · obtain ⟨lo, hlo, hloNat⟩ := rd64_eq_reference (d := d) 1 (show p + 8 ≤ data.length by omega)
    obtain ⟨hi, hhi, hhiNat⟩ := rd64_eq_reference (d := d) 1 (show p + 8 + 8 ≤ data.length by omega)
    by_cases hsecond : 32 < i
    · obtain ⟨lo', hlo', hloNat'⟩ := rd64_eq_reference (d := d) 1 (show p + 16 + 8 ≤ data.length by omega)
      obtain ⟨hi', hhi', hhiNat'⟩ := rd64_eq_reference (d := d) 1 (show p + 24 + 8 ≤ data.length by omega)
      refine ⟨_, by simp only [tailRounds, hfirst, hsecond, hlo, hhi, hlo', hhi']; rfl, ?_⟩
      simp [Reference.tail, hfirst, hsecond, hloNat, hhiNat, hloNat', hhiNat']
    · refine ⟨_, by simp only [tailRounds, hfirst, hsecond, hlo, hhi]; rfl, ?_⟩
      simp [Reference.tail, hfirst, hsecond, hloNat, hhiNat]
  · exact ⟨seed, if_neg hfirst, (if_neg hfirst).symm⟩

/-- Chunks of more than 16 bytes: the pseudocode's seed after the tail, and the last 16 bytes XORed in (R160). -/
theorem longStep_eq_reference (x y seed : Word) (h : 16 < data.length) :
    ∃ r, longStep b ⟨data.map some, d⟩ x y seed = some r ∧
      numbers r = (x.toNat ^^^ Reference.rd64 data (data.length - 16),
        y.toNat ^^^ Reference.rd64 data (data.length - 8),
        Reference.tail b data (Reference.bulk b data ⟨seed.toNat, 0, 0, 0, data.length⟩)) := by
  obtain ⟨bulk, hbulk, see1, see2, hbulkVars⟩ := bulkStage_eq_reference b (data := data) (d := d) seed
  obtain ⟨seed', hseed, hseedNat⟩ := tailRounds_eq_reference b (d := d) bulk see1 see2
    (Nat.add_sub_of_le (bulkEnd_le data.length)).le
  obtain ⟨w, hw, hwNat⟩ := rd64_eq_reference (d := d) 2 (show data.length - 16 + 8 ≤ data.length by omega)
  obtain ⟨z, hz, hzNat⟩ := rd64_eq_reference (d := d) 2 (show data.length - 8 + 8 ≤ data.length by omega)
  refine ⟨(x ^^^ w, y ^^^ z, seed'), by simp [longStep, hbulk, hseed, hw, hz], ?_⟩
  simp [numbers, hbulkVars, hseedNat, hwNat, hzNat]

/-- The band step of every length gives the numbers that the pseudocode's final step starts from. -/
theorem bandStep_eq_reference (x y seed : Word) :
    ∃ r, bandStep b ⟨data.map some, d⟩ x y seed = some r ∧
      Reference.core b data x.toNat y.toNat seed.toNat = finalNumbers b (numbers r) := by
  have hlen := len_map_some data d
  by_cases hshort : data.length ≤ 16
  · by_cases hfour : 4 ≤ data.length
    · obtain ⟨w, z, hwz, hw, hz⟩ := band234Words_eq_reference (d := d) hfour
      refine ⟨_, bandStep_of_shortStep seed (by omega) (shortStep_of_band234 x y (by omega) hwz), ?_⟩
      simp [Reference.core, finalNumbers, numbers, hshort, hfour, hw, hz, bandDelta]
    · by_cases hpos : 0 < data.length
      · obtain ⟨w, hwords, hw⟩ := band1Word_eq_reference (d := d) hpos
        refine ⟨_, bandStep_of_shortStep seed (by omega) (shortStep_of_band1 x y (by omega) (by omega) hwords), ?_⟩
        simp [Reference.core, finalNumbers, numbers, hshort, hfour, hpos, hw]
      · refine ⟨_, bandStep_of_shortStep seed (by omega) (shortStep_of_len_zero x y (by omega)), ?_⟩
        simp [Reference.core, finalNumbers, numbers, hshort, hfour, hpos]
  · obtain ⟨r, hr, hnumbers⟩ := longStep_eq_reference b (data := data) (d := d) x y seed (by omega)
    refine ⟨r, (if_neg (by omega)).trans hr, ?_⟩
    simp [Reference.core, finalNumbers, hshort, hnumbers]

end Defined

/-- Settles O39: each band step gives the pseudocode's numbers, and the final step works on them as the pseudocode's. -/
theorem coreComputesThePseudocode : Obligations.CoreComputesThePseudocode := by
  intro b data d x y seed
  obtain ⟨r, hr, hcore⟩ := bandStep_eq_reference b (data := data) (d := d) x y seed
  exact ⟨_, _, _, compress_of_bandStep hr, (numbers_finalStep b r).trans hcore.symm⟩

end Sys2Proof.Machine

/-! The statement of 44_finalization: `finish` and its corner cases (R180, R181). -/

namespace Sys2Proof.Machine

theorem finalize_eq (b : Build) (x y n : Word) :
    finalize b x y n = mix (x ^^^ b.secret0 ^^^ n) (y ^^^ b.secret1) := by
  rfl

theorem mix_zero_right (x : Word) : mix x 0 = 0 := by
  rw [mix_comm, mix_zero_left]

/-- Without accumulators and count only the two secrets are left to mix. -/
theorem finalize_zero (b : Build) : finalize b 0 0 0 = mix b.secret0 b.secret1 := by
  have hfirst : (0 : Word) ^^^ b.secret0 ^^^ 0 = b.secret0 := BitVec.xor_zero.trans BitVec.zero_xor
  have hsecond : (0 : Word) ^^^ b.secret1 = b.secret1 := BitVec.zero_xor
  rw [finalize_eq, hfirst, hsecond]

/-- Either operand of the mix destroys the other one when it is zero. -/
theorem finalize_eq_zero (b : Build) (x y n : Word) (h : x ^^^ b.secret0 ^^^ n = 0 ∨ y = b.secret1) :
    finalize b x y n = 0 := by
  rw [finalize_eq]
  obtain hfirst | rfl := h
  · rw [hfirst, mix_zero_left]
  · rw [BitVec.xor_self]; exact mix_zero_right _

/-- The first accumulator and the count enter only through their XOR. -/
theorem finalize_eq_finalize_xor (b : Build) (x y n : Word) :
    finalize b x y n = finalize b (x ^^^ n) y 0 := by
  have hswap : x ^^^ b.secret0 ^^^ n = x ^^^ n ^^^ b.secret0 := by ac_rfl
  have hzero : x ^^^ n ^^^ b.secret0 ^^^ 0 = x ^^^ n ^^^ b.secret0 := BitVec.xor_zero
  rw [finalize_eq, finalize_eq, hswap, hzero]

/-- A count may be exchanged for any other one, by toggling their bits in the first accumulator. -/
theorem finalize_change_count (b : Build) (x y n m : Word) :
    finalize b x y n = finalize b (x ^^^ n ^^^ m) y m := by
  have hcancel : x ^^^ n ^^^ m ^^^ m = x ^^^ n := by
    rw [BitVec.xor_assoc, BitVec.xor_self]; exact BitVec.xor_zero
  rw [finalize_eq_finalize_xor b x, finalize_eq_finalize_xor b (x ^^^ n ^^^ m), hcancel]

/-- Settles O35: R181's corner cases; the number is the mix of the default secrets. -/
theorem finishCornerCases : Obligations.FinishCornerCases :=
  ⟨finalize_eq, finalize_zero, by decide, finalize_eq_zero, finalize_change_count⟩

end Sys2Proof.Machine

/-! The statements of 45_oneshot: HASH gives the one-shot digest of its chunk (R190), and depends on nothing but the seed and the chunk's bytes (R192). -/

namespace Sys2Proof.Machine

/-! ### Acceptance of a command's own word (R243) -/

/-- In an idle block without error a command is latched when its operand checks pass, and raises the first that fails. -/
theorem accept_encode (i : Instr) {s : State} (hidle : s.fsm = .idle) (herr : s.err = 0) :
    accept (encode i) s = (operandCheck i s).elim (s.latch (encode i)) s.raise := by
  cases hcheck : operandCheck i s <;> simp [accept, hidle, herr, decode_encode, hcheck]

/-- The chunk's range is the one check of the chunk commands that expose no reader. -/
theorem operandCheck_of_usesChunk {i : Instr} (hchunk : usesChunk i = true) (hwidth : readWidth i = 0) (s : State) :
    operandCheck i s
      = if s.build.bufBytes < s.chunkOff.toNat + s.chunkLen.toNat then some .chunkRange else none := by
  simp [operandCheck, hchunk, hwidth, chunkOutOfRange]

/-- Such a command is accepted as the safety predicate says. -/
theorem acceptedInRange_encode {i : Instr} (hchunk : usesChunk i = true) (hwidth : readWidth i = 0) (s : State) :
    acceptedInRange (encode i) s := by
  intro hidle herr
  have hcmd : hostWriteAt 0x010 8 (encode i) s = accept (encode i) s := hostWriteAt_regAt (r := .cmd) rfl _ s
  rw [hcmd, accept_encode i hidle herr, operandCheck_of_usesChunk hchunk hwidth]
  split
  · exact raise_of_err_zero .chunkRange herr
  · rfl

/-! ### The chunk of IBUF as a list of bytes (R14) -/

/-- The chunk that the safety predicate describes is the list of its bytes, all defined. -/
theorem chunkOf_of_chunkHolds {s : State} {data : List Byte} (h : chunkHolds s data) :
    chunkOf s = ⟨data.map some, s.draws⟩ := by
  obtain ⟨hlen, hbytes⟩ := h
  rw [chunkOf, ← hlen]
  congr 1
  refine List.ext_getElem (by simp) fun o _ ho => ?_
  have hdata : o < data.length := by simpa using ho
  rw [List.getElem_map, List.getElem_range, List.getElem_map, hbytes o hdata, List.getElem?_eq_getElem hdata]

/-- The length of a chunk of IBUF fits its register, so it is the word that the digest takes as its count. -/
theorem toNat_ofNat_length_of_chunkHolds {s : State} {data : List Byte} (h : chunkHolds s data) :
    (BitVec.ofNat 64 data.length).toNat = data.length := by
  rw [h.1, BitVec.ofNat_toNat, BitVec.setWidth_eq]

/-! ### The digest in numbers (R140, R180, R190) -/

@[simp] theorem toNat_evolveSeed (b : Build) (seed n : Word) :
    (evolveSeed b seed n).toNat = Reference.evolveSeed b seed.toNat n.toNat := by
  simp [evolveSeed, Reference.evolveSeed]

@[simp] theorem toNat_finalize (b : Build) (x y n : Word) :
    (finalize b x y n).toNat = Reference.finish b x.toNat y.toNat n.toNat := by
  simp [finalize, Reference.finish]

/-- HASH of a defined chunk: the pseudocode's digest, and nothing else but RES1 and BAND. -/
theorem hashChunk_of_chunkHolds (seed : Word) {s : State} {data : List Byte} (h : chunkHolds s data) :
    ∃ digest : Word, digest.toNat = Reference.hash s.build seed.toNat data ∧
      hashChunk seed (chunkOf s) s
        = { s with res0 := digest, res1 := 0, band := BitVec.ofNat 4 (bandClass data.length) } := by
  have hcount := toNat_ofNat_length_of_chunkHolds h
  obtain ⟨x, y, seed', hcompress, hcore⟩ := coreComputesThePseudocode s.build data s.draws 0 0
    (evolveSeed s.build seed (BitVec.ofNat 64 data.length))
  rw [toNat_evolveSeed, hcount] at hcore
  refine ⟨finalize s.build x y (BitVec.ofNat 64 data.length), ?_, ?_⟩
  · rw [toNat_finalize, hcount, Reference.hash]
    exact congrArg (fun r => Reference.finish s.build r.1 r.2.1 data.length) hcore
  · rw [chunkOf_of_chunkHolds h, hashChunk, len_map_some, hcompress, hasUndefined_map_some]
    rfl

/-- HASH of a chunk with an undefined byte records the model fault (R34). -/
theorem hashChunk_modelFault_of_chunkUndefined (seed : Word) {s : State} (h : chunkUndefined s) :
    (hashChunk seed (chunkOf s) s).modelFault = some .ibufUndefined := by
  rw [hashChunk_modelFault, recorded_fault_iff]
  exact .inr h

/-- HASH hashes its chunk of IBUF under ARG0. -/
theorem exec_hash (s : State) : exec .hash s = .next (hashChunk s.arg0 (chunkOf s) s) := rfl

/-- HASH.DS hashes its chunk of IBUF under DEFAULT_SEED. -/
theorem exec_hashDs (s : State) : exec .hashDs s = .next (hashChunk s.build.defaultSeed (chunkOf s) s) := rfl

/-- Settles O49: both commands run `hashChunk`, under ARG0 and under DEFAULT_SEED. -/
theorem hashGivesTheOneShotDigest : Obligations.HashGivesTheOneShotDigest := by
  refine ⟨rfl, rfl,
    fun s => ⟨acceptedInRange_encode (i := .hash) rfl rfl s, acceptedInRange_encode (i := .hashDs) rfl rfl s⟩,
    fun s data hs => ?_, fun s hs => ?_⟩
  · obtain ⟨digest, hdigest, heffect⟩ := hashChunk_of_chunkHolds s.arg0 hs
    obtain ⟨digestDs, hdigestDs, heffectDs⟩ := hashChunk_of_chunkHolds s.build.defaultSeed hs
    exact ⟨digest, digestDs, hdigest, hdigestDs, by rw [exec_hash, heffect], by rw [exec_hashDs, heffectDs]⟩
  · exact ⟨_, _, exec_hash s, exec_hashDs s, hashChunk_modelFault_of_chunkUndefined _ hs,
      hashChunk_modelFault_of_chunkUndefined _ hs⟩

/-! ### The digest depends on the seed and the bytes alone (R192) -/

/-- Two blocks of one build give one digest of the same bytes: it is the pseudocode's, which sees nothing else. -/
theorem hashChunk_res0_congr (seed : Word) {s u : State} {data : List Byte} (hbuild : u.build = s.build)
    (hs : chunkHolds s data) (hu : chunkHolds u data) :
    (hashChunk seed (chunkOf u) u).res0 = (hashChunk seed (chunkOf s) s).res0 := by
  obtain ⟨digest, hdigest, heffect⟩ := hashChunk_of_chunkHolds seed hs
  obtain ⟨digest', hdigest', heffect'⟩ := hashChunk_of_chunkHolds seed hu
  rw [heffect, heffect']
  exact BitVec.eq_of_toNat_eq (by rw [hdigest, hdigest', hbuild])

/-- Settles O50: with equal seeds the two commands hash alike, and HASH under DEFAULT_SEED is HASH.DS. -/
theorem hashIsDeterministic : Obligations.HashIsDeterministic := by
  refine fun s u data hbuild hs hu => ⟨fun harg => ?_, ?_, fun hseed => ?_⟩
  · refine ⟨_, _, exec_hash s, exec_hash u, ?_⟩
    rw [harg]
    exact hashChunk_res0_congr s.arg0 hbuild hs hu
  · refine ⟨_, _, exec_hashDs s, exec_hashDs u, ?_⟩
    rw [hbuild]
    exact hashChunk_res0_congr s.build.defaultSeed hbuild hs hu
  · rw [exec_hash, exec_hashDs, hseed]

end Sys2Proof.Machine

/-! The statements of 46_streaming: INIT, WRITE, WRITEI and FINISH (R201 to R207), the contract of one WRITE and the one-shot HASH (R208), and what a stream depends on (R210, R211). -/

namespace Sys2Proof.Machine

/-! ### What each streaming command runs (R201, R202, R205, R207) -/

/-- INIT starts a stream under ARG0. -/
theorem exec_init (s : State) : exec .init s = .next (startStream s.arg0 s) := rfl

/-- INIT.DS starts a stream under DEFAULT_SEED. -/
theorem exec_initDs (s : State) : exec .initDs s = .next (startStream s.build.defaultSeed s) := rfl

/-- WRITE folds its chunk of IBUF. -/
theorem exec_write (s : State) : exec .write s = .next (foldChunk (chunkOf s) s) := rfl

/-- FINISH gives the digest of the streaming registers. -/
theorem exec_finish (s : State) :
    exec .finish s = .next (s.setResult (finalize s.build s.accA s.accB s.size) 0) := rfl

/-- CORE runs the engine on its chunk of IBUF. -/
theorem exec_core (s : State) : exec .core s = .next (coreChunk (chunkOf s) s) := rfl

/-- The commands that fold an integer, each with the number of bytes it folds (R205). -/
def integerLengths : List (Instr × Nat) :=
  [(.writei8, 1), (.writei16, 2), (.writei32, 4), (.writei64, 8), (.writei128, 16)]

/-- WRITEI folds as many bytes of ARG1:ARG0 as its width says. -/
theorem exec_of_mem_integerLengths {i : Instr} {n : Nat} (h : (i, n) ∈ integerLengths) (s : State) :
    exec i s = .next (foldChunk (integerChunk n s) s) := by
  simp only [integerLengths, List.mem_cons, Prod.mk.injEq, List.not_mem_nil, or_false] at h
  obtain ⟨rfl, rfl⟩ | ⟨rfl, rfl⟩ | ⟨rfl, rfl⟩ | ⟨rfl, rfl⟩ | ⟨rfl, rfl⟩ := h <;> rfl

/-- No integer has more bytes than ARG1:ARG0. -/
theorem le_of_mem_integerLengths {i : Instr} {n : Nat} (h : (i, n) ∈ integerLengths) : n ≤ 16 := by
  revert h
  simp only [integerLengths, List.mem_cons, Prod.mk.injEq, List.not_mem_nil, or_false]
  omega

/-! ### Acceptance of the commands that check no operand (R243) -/

/-- Where neither chunk nor reader is used there is nothing to check. -/
theorem operandCheck_of_not_usesChunk {i : Instr} (hchunk : usesChunk i = false) (hwidth : readWidth i = 0) (s : State) :
    operandCheck i s = none := by
  simp [operandCheck, hchunk, hwidth]

/-- A command whose operand checks pass is latched by its CMD write to an idle block without error. -/
theorem hostWriteAt_cmd_of_operandCheck {i : Instr} {s : State} (hidle : s.fsm = .idle) (herr : s.err = 0)
    (hcheck : operandCheck i s = none) : hostWriteAt 0x010 8 (encode i) s = s.latch (encode i) := by
  have hcmd : hostWriteAt 0x010 8 (encode i) s = accept (encode i) s := hostWriteAt_regAt (r := .cmd) rfl _ s
  rw [hcmd, accept_encode i hidle herr, hcheck]
  rfl

/-- Such a command is accepted as the safety predicate says. -/
theorem acceptedAlways_encode {i : Instr} (hchunk : usesChunk i = false) (hwidth : readWidth i = 0) (s : State) :
    acceptedAlways (encode i) s := fun hidle herr =>
  hostWriteAt_cmd_of_operandCheck hidle herr (operandCheck_of_not_usesChunk hchunk hwidth s)

/-- WRITEI checks no operand. -/
theorem acceptedAlways_of_mem_integerLengths {i : Instr} {n : Nat} (h : (i, n) ∈ integerLengths) (s : State) :
    acceptedAlways (encode i) s := by
  simp only [integerLengths, List.mem_cons, Prod.mk.injEq, List.not_mem_nil, or_false] at h
  obtain ⟨rfl, -⟩ | ⟨rfl, -⟩ | ⟨rfl, -⟩ | ⟨rfl, -⟩ | ⟨rfl, -⟩ := h <;> exact acceptedAlways_encode rfl rfl s

/-! ### The streaming registers as the pseudocode's hasher (R31) -/

@[simp] theorem hasherOf_seed (s : State) : (hasherOf s).seed = s.seed.toNat := rfl
@[simp] theorem hasherOf_a (s : State) : (hasherOf s).a = s.accA.toNat := rfl
@[simp] theorem hasherOf_b (s : State) : (hasherOf s).b = s.accB.toNat := rfl
@[simp] theorem hasherOf_size (s : State) : (hasherOf s).size = s.size.toNat := rfl

/-- Two states hold one hasher exactly where their four streaming registers agree. -/
theorem hasherOf_eq_iff {s u : State} :
    hasherOf u = hasherOf s ↔ u.seed = s.seed ∧ u.accA = s.accA ∧ u.accB = s.accB ∧ u.size = s.size := by
  simp [hasherOf, BitVec.toNat_inj]

/-! ### Folding a list of bytes (R202, R204) -/

/-- A fold writes what the engine answers. -/
theorem foldChunk_of_compress {c : Chunk} {s : State} {a b x : Word}
    (h : compress s.build c s.accA s.accB (evolveSeed s.build s.seed (sizeAfter c.len s)) = some (a, b, x)) :
    foldChunk c s = (((s.setStream x a b (sizeAfter c.len s)).setOvf (ovfAfter c.len s)).setBand c.len).noteRead
      c.hasUndefined := by
  rw [foldChunk, h]

@[simp] theorem foldChunk_size (c : Chunk) (s : State) : (foldChunk c s).size = sizeAfter c.len s := by
  obtain ⟨_, _, _, h⟩ := foldChunk_effect c s; simp [h]

@[simp] theorem toNat_sizeAfter (n : Nat) (s : State) : (sizeAfter n s).toNat = (s.size.toNat + n) % 2 ^ 64 :=
  BitVec.toNat_ofNat ..

/-- A command that folds defined bytes, at whatever draw, has the effect of the pseudocode's `write`. -/
theorem foldsBytes_of_exec {i : Instr} {s : State} {data : List Byte} {d : Nat}
    (h : exec i s = .next (foldChunk ⟨data.map some, d⟩ s)) : foldsBytes i s data := by
  obtain ⟨a, b, x, hcompress, hcore⟩ := coreComputesThePseudocode s.build data d s.accA s.accB
    (evolveSeed s.build s.seed (sizeAfter data.length s))
  rw [toNat_evolveSeed, toNat_sizeAfter] at hcore
  refine ⟨x, a, b, sizeAfter data.length s, ?_, ?_⟩
  · simp only [Reference.write, hasherOf_seed, hasherOf_a, hasherOf_b, hasherOf_size, ← hcore, toNat_sizeAfter]
  · rw [← len_map_some data d] at hcompress
    rw [h, foldChunk_of_compress hcompress, len_map_some, hasUndefined_map_some]
    rfl

/-- What such a command leaves of the stream, OVF and BAND depends on the bytes and those registers alone. -/
theorem exec_hasherOf_of_foldsBytes {i : Instr} {s : State} {data : List Byte} (h : foldsBytes i s data) :
    ∃ t, exec i s = .next t ∧ hasherOf t = Reference.write s.build data (hasherOf s) ∧
      t.ovf = (s.ovf || decide (2 ^ 64 ≤ s.size.toNat + data.length)) ∧
      t.band = BitVec.ofNat 4 (bandClass data.length) := by
  obtain ⟨x, a, b, n, hwrite, hexec⟩ := h
  exact ⟨_, hexec, hwrite, rfl, rfl⟩

/-- WRITE of a defined chunk folds its bytes. -/
theorem foldsBytes_write {s : State} {data : List Byte} (h : chunkHolds s data) : foldsBytes .write s data :=
  foldsBytes_of_exec (d := s.draws) (by rw [exec_write, chunkOf_of_chunkHolds h])

/-- Settles O44: WRITE folds its chunk as the pseudocode does, and records an undefined byte. -/
theorem writeFoldsTheChunk : Obligations.WriteFoldsTheChunk :=
  ⟨rfl, fun s => acceptedInRange_encode (i := .write) rfl rfl s, fun _ _ hs => foldsBytes_write hs,
    fun s hs => ⟨_, exec_write s, (exec_chunk_fault (by simp) (exec_write s)).2 (.inr hs)⟩⟩

/-- Settles O45: the engine always answers, so SIZE, OVF, ERR and BAND are those of a fold. -/
theorem writeCountsWithWrapAndOverflowFlag : Obligations.WriteCountsWithWrapAndOverflowFlag := by
  refine fun s => ⟨_, exec_write s, ?_, ?_, foldChunk_err .., ?_⟩
  · rw [foldChunk_size, toNat_sizeAfter, chunkOf_len]
  · rw [foldChunk_ovf, ovfAfter_eq_true, chunkOf_len]
  · rw [foldChunk_band, toNat_bandClass, chunkOf_len]

/-! ### The bytes of an integer (R205) -/

/-- Byte `k` of ARG1:ARG0 is cut from the one register that holds it. -/
theorem extract_arg1_arg0 {k : Nat} (s : State) (hk : k < 16) :
    (s.arg1 ++ s.arg0).extractLsb' (8 * k) 8 = integerByte s k := by
  unfold integerByte
  split
  · rw [BitVec.extractLsb'_append_eq_of_add_le (by omega)]
  · rw [BitVec.extractLsb'_append_eq_of_le (by omega), Nat.mul_sub]

/-- The chunk that WRITEI folds is the list of its integer's bytes. -/
theorem integerChunk_eq {n : Nat} (hn : n ≤ 16) (s : State) :
    integerChunk n s = ⟨((List.range n).map (integerByte s)).map some, s.draws⟩ := by
  have hbytes : leBytes (s.arg1 ++ s.arg0) n = (List.range n).map (integerByte s) :=
    List.map_congr_left fun k hk => extract_arg1_arg0 s (by rw [List.mem_range] at hk; omega)
  rw [integerChunk, hbytes]

/-- WRITEI folds the bytes of its integer. -/
theorem foldsBytes_of_mem_integerLengths {i : Instr} {n : Nat} (h : (i, n) ∈ integerLengths) (s : State) :
    foldsBytes i s ((List.range n).map (integerByte s)) :=
  foldsBytes_of_exec (d := s.draws)
    (by rw [exec_of_mem_integerLengths h, integerChunk_eq (le_of_mem_integerLengths h)])

/-- Settles O46: WRITEI checks no operand and folds the bytes of ARG1:ARG0. -/
theorem integerWritesFoldTheirBytes : Obligations.IntegerWritesFoldTheirBytes :=
  ⟨rfl, rfl, rfl, rfl, rfl, fun s _ _ h =>
    ⟨acceptedAlways_of_mem_integerLengths h s, foldsBytes_of_mem_integerLengths h s⟩⟩

/-- Commands that fold one list of bytes take equal streams to equal streams, whatever else their states hold. -/
theorem foldsBytes_congr {i j : Instr} {s u : State} {data : List Byte} (hi : foldsBytes i s data)
    (hj : foldsBytes j u data) (hbuild : u.build = s.build) (hstream : hasherOf u = hasherOf s) :
    ∃ s' u', exec i s = .next s' ∧ exec j u = .next u' ∧ hasherOf u' = hasherOf s' ∧
      (u.ovf = s.ovf → u'.ovf = s'.ovf) ∧ u'.band = s'.band := by
  obtain ⟨s', hs, hstreamS, hovfS, hbandS⟩ := exec_hasherOf_of_foldsBytes hi
  obtain ⟨u', hu, hstreamU, hovfU, hbandU⟩ := exec_hasherOf_of_foldsBytes hj
  obtain ⟨-, -, -, hsize⟩ := hasherOf_eq_iff.1 hstream
  refine ⟨s', u', hs, hu, ?_, fun hovf => ?_, hbandU.trans hbandS.symm⟩
  · rw [hstreamU, hstreamS, hbuild, hstream]
  · rw [hovfU, hovfS, hovf, hsize]

/-- Settles O47: both commands fold the same bytes. -/
theorem integerWriteEqualsByteWrite : Obligations.IntegerWriteEqualsByteWrite := by
  intro s u i n hi hbuild hseed haccA haccB hsize hovf hchunk
  obtain ⟨s', u', hs, hu, hstream, hovf', hband⟩ := foldsBytes_congr (foldsBytes_of_mem_integerLengths hi s)
    (foldsBytes_write hchunk) hbuild (hasherOf_eq_iff.2 ⟨hseed, haccA, haccB, hsize⟩)
  obtain ⟨hseed', haccA', haccB', hsize'⟩ := hasherOf_eq_iff.1 hstream
  exact ⟨s', u', hs, hu, hseed', haccA', haccB', hsize', hovf' hovf, hband⟩

/-! ### One WRITE of the whole input is the one-shot hash (R208) -/

/-- In the pseudocode, one `write` to a fresh stream and `finish` make up the one-shot hash: the count has not wrapped. -/
theorem reference_finish_write_eq_hash (b : Build) (seed : Nat) {data : List Byte} (hlen : data.length < 2 ^ 64) :
    Reference.finish b (Reference.write b data ⟨seed, 0, 0, 0⟩).a (Reference.write b data ⟨seed, 0, 0, 0⟩).b
      (Reference.write b data ⟨seed, 0, 0, 0⟩).size = Reference.hash b seed data := by
  have hcount : (0 + data.length) % 2 ^ 64 = data.length := by rw [Nat.zero_add, Nat.mod_eq_of_lt hlen]
  simp only [Reference.write, Reference.hash, hcount]

/-- The host writes a command to CMD and the datapath completes it: two steps, the command running on the latched state (R243, R281). -/
theorem run_command {i : Instr} {s t : State} {rest : List Move} (k : Nat) (hidle : s.fsm = .idle) (herr : s.err = 0)
    (hcheck : operandCheck i s = none) (hagenda : s.agenda = scriptCmd s.build i ++ .complete :: rest)
    (hexec : exec i (s.latch (encode i)).popMove = .next t) :
    Host.Core.run core (k + 2) s = Host.Core.run core k t.retire.popMove := by
  have haccept : step s = .next (s.latch (encode i)).popMove := by
    rw [← hostWriteAt_cmd_of_operandCheck hidle herr hcheck]
    exact step_hostWrite hagenda (portOffset_base (by decide))
  have hnext : nextMove (s.latch (encode i)).popMove = some .complete := by
    simp [nextMove, hagenda, scriptCmd, scriptStore]
  rw [run_succ_of_next _ haccept, run_succ_of_next _ (step_complete hnext rfl rfl (decode_encode i) hexec)]

/-- When nothing comes after the completion, the run ends there. -/
theorem run_last_command {i : Instr} {s t : State} (hidle : s.fsm = .idle) (herr : s.err = 0)
    (hcheck : operandCheck i s = none) (hagenda : s.agenda = scriptCmd s.build i ++ [.complete])
    (hexec : exec i (s.latch (encode i)).popMove = .next t) :
    Host.Core.run core 2 s = .next t.retire.popMove :=
  run_command 0 hidle herr hcheck hagenda hexec

section Contract

variable {s : State} {data : List Byte} {i : Instr} {seed : Word}

/-- On a fresh stream under `seed`, WRITE and FINISH leave the pseudocode's digest in RES0. -/
theorem run_write_finish (hidle : s.fsm = .idle) (herr : s.err = 0) (hchunk : chunkHolds s data)
    (hrange : s.chunkOff.toNat + s.chunkLen.toNat ≤ s.build.bufBytes) (hfresh : hasherOf s = ⟨seed.toNat, 0, 0, 0⟩)
    (hagenda : s.agenda
      = scriptCmd s.build .write ++ .complete :: (scriptCmd s.build .finish ++ [.complete])) :
    ∃ t, Host.Core.run core 4 s = .next t ∧ t.fsm = .idle ∧ t.err = 0 ∧
      t.res0.toNat = Reference.hash s.build seed.toNat data := by
  have hcheck : operandCheck .write s = none :=
    (operandCheck_of_usesChunk rfl rfl s).trans (if_neg (Nat.not_lt.2 hrange))
  obtain ⟨x, a, b, n, hwrite, hexec⟩ := foldsBytes_write (s := (s.latch (encode .write)).popMove) (data := data) hchunk
  have hwrite : (⟨x.toNat, a.toNat, b.toNat, n.toNat⟩ : Reference.Hasher)
      = Reference.write s.build data ⟨seed.toNat, 0, 0, 0⟩ := hfresh ▸ hwrite
  have hlen : data.length < 2 ^ 64 := hchunk.1 ▸ s.chunkLen.isLt
  have hdigest : Reference.finish s.build a.toNat b.toNat n.toNat = Reference.hash s.build seed.toNat data := by
    rw [← reference_finish_write_eq_hash s.build seed.toNat hlen, ← hwrite]
  have hagendaFinish := congrArg (fun moves => moves.tail.tail) hagenda
  refine ⟨_, (run_command 2 hidle herr hcheck hagenda hexec).trans (run_last_command rfl herr
    (operandCheck_of_not_usesChunk rfl rfl _) hagendaFinish (exec_finish _)), rfl, herr, ?_⟩
  exact (toNat_finalize ..).trans hdigest

/-- A command that starts a stream under `seed`, then WRITE and FINISH, leave the pseudocode's digest in RES0. -/
theorem run_streamed (hidle : s.fsm = .idle) (herr : s.err = 0) (hchunk : chunkHolds s data)
    (hrange : s.chunkOff.toNat + s.chunkLen.toNat ≤ s.build.bufBytes) (hcheck : operandCheck i s = none)
    (hagenda : s.agenda = scriptCmd s.build i ++ [.complete] ++ scriptCmd s.build .write ++ [.complete]
      ++ scriptCmd s.build .finish ++ [.complete])
    (hexec : exec i (s.latch (encode i)).popMove = .next (startStream seed (s.latch (encode i)).popMove)) :
    ∃ t, Host.Core.run core 6 s = .next t ∧ t.fsm = .idle ∧ t.err = 0 ∧
      t.res0.toNat = Reference.hash s.build seed.toNat data := by
  rw [run_command 4 hidle herr hcheck hagenda hexec]
  exact run_write_finish (s := (startStream seed (s.latch (encode i)).popMove).retire.popMove) rfl herr hchunk hrange rfl
    (congrArg (fun moves => moves.tail.tail) hagenda)

/-- A command that hashes its chunk under `seed` leaves the pseudocode's digest in RES0. -/
theorem run_oneShot (hidle : s.fsm = .idle) (herr : s.err = 0) (hchunk : chunkHolds s data)
    (hcheck : operandCheck i s = none) (hagenda : s.agenda = scriptCmd s.build i ++ [.complete])
    (hexec : exec i (s.latch (encode i)).popMove
      = .next (hashChunk seed (chunkOf (s.latch (encode i)).popMove) (s.latch (encode i)).popMove)) :
    ∃ u, Host.Core.run core 2 s = .next u ∧ u.fsm = .idle ∧ u.err = 0 ∧
      u.res0.toNat = Reference.hash s.build seed.toNat data := by
  obtain ⟨digest, hdigest, heffect⟩ :=
    hashChunk_of_chunkHolds seed (s := (s.latch (encode i)).popMove) (data := data) hchunk
  rw [heffect] at hexec
  exact ⟨_, run_last_command hidle herr hcheck hagenda hexec, rfl, herr, hdigest⟩

end Contract

/-- Settles O57: both runs end with the pseudocode's digest of the chunk under the same seed. -/
theorem oneWriteEqualsOneShot : Obligations.OneWriteEqualsOneShot := by
  intro s data hidle herr hchunk hrange first digest seedUsed hmem streamed oneShot
  have hcheckHash {i : Instr} (huses : usesChunk i = true) (hwidth : readWidth i = 0) :
      operandCheck i { s with agenda := oneShot } = none :=
    (operandCheck_of_usesChunk huses hwidth _).trans (if_neg (Nat.not_lt.2 hrange))
  suffices hruns : (∃ t, Host.Core.run core 6 { s with agenda := streamed } = .next t ∧ t.fsm = .idle ∧ t.err = 0 ∧
        t.res0.toNat = Reference.hash s.build seedUsed.toNat data) ∧
      ∃ u, Host.Core.run core 2 { s with agenda := oneShot } = .next u ∧ u.fsm = .idle ∧ u.err = 0 ∧
        u.res0.toNat = Reference.hash s.build seedUsed.toNat data by
    obtain ⟨⟨t, ht, hidleT, herrT, hresT⟩, u, hu, hidleU, herrU, hresU⟩ := hruns
    exact ⟨t, u, ht, hu, hidleT, hidleU, herrT, herrU, BitVec.eq_of_toNat_eq (hresT.trans hresU.symm), hresU⟩
  simp only [List.mem_cons, Prod.mk.injEq, List.not_mem_nil, or_false] at hmem
  obtain ⟨rfl, rfl, rfl⟩ | ⟨rfl, rfl, rfl⟩ := hmem
  · exact ⟨run_streamed hidle herr hchunk hrange (operandCheck_of_not_usesChunk rfl rfl _) rfl (exec_init _),
      run_oneShot hidle herr hchunk (hcheckHash rfl rfl) rfl (exec_hash _)⟩
  · exact ⟨run_streamed hidle herr hchunk hrange (operandCheck_of_not_usesChunk rfl rfl _) rfl (exec_initDs _),
      run_oneShot hidle herr hchunk (hcheckHash rfl rfl) rfl (exec_hashDs _)⟩

/-! ### A stream depends on its registers and its operands alone (R210) -/

/-- CORE of a defined chunk: the pseudocode's values in the streaming registers, and nothing else but BAND. -/
theorem coreChunk_of_chunkHolds {s : State} {data : List Byte} (h : chunkHolds s data) :
    ∃ x a b : Word,
      (a.toNat, b.toNat, x.toNat) = Reference.core s.build data s.accA.toNat s.accB.toNat s.seed.toNat ∧
      coreChunk (chunkOf s) s
        = { s with seed := x, accA := a, accB := b, band := BitVec.ofNat 4 (bandClass data.length) } := by
  obtain ⟨a, b, x, hcompress, hcore⟩ := coreComputesThePseudocode s.build data s.draws s.accA s.accB s.seed
  refine ⟨x, a, b, hcore, ?_⟩
  rw [chunkOf_of_chunkHolds h, coreChunk, hcompress, len_map_some, hasUndefined_map_some]
  rfl

/-- The command completes in both states, and leaves one stream in both. -/
def StreamsAgreeAfter (i : Instr) (s u : State) : Prop :=
  ∃ s' u', exec i s = .next s' ∧ exec i u = .next u' ∧ hasherOf u' = hasherOf s'

section Congr

variable {s u : State} (hbuild : u.build = s.build) (hstream : hasherOf u = hasherOf s)
include hbuild hstream

theorem streamsAgreeAfter_of_foldsBytes {i : Instr} {data : List Byte} (hs : foldsBytes i s data)
    (hu : foldsBytes i u data) : StreamsAgreeAfter i s u := by
  obtain ⟨s', u', hs', hu', hstream', -⟩ := foldsBytes_congr hs hu hbuild hstream
  exact ⟨s', u', hs', hu', hstream'⟩

/-- WRITEI: ARG1 counts only above 8 bytes. -/
theorem streamsAgreeAfter_integer {i : Instr} {n : Nat} (h : (i, n) ∈ integerLengths) (harg0 : u.arg0 = s.arg0)
    (harg1 : 8 < n → u.arg1 = s.arg1) : StreamsAgreeAfter i s u := by
  have hbytes : (List.range n).map (integerByte u) = (List.range n).map (integerByte s) := by
    refine List.map_congr_left fun k hk => ?_
    rw [List.mem_range] at hk
    unfold integerByte
    split
    · rw [harg0]
    · rw [harg1 (by omega)]
  exact streamsAgreeAfter_of_foldsBytes hbuild hstream (foldsBytes_of_mem_integerLengths h s)
    (hbytes ▸ foldsBytes_of_mem_integerLengths h u)

theorem streamsAgreeAfter_core {data : List Byte} (hs : chunkHolds s data) (hu : chunkHolds u data) :
    StreamsAgreeAfter .core s u := by
  obtain ⟨x, a, b, hcore, heffect⟩ := coreChunk_of_chunkHolds hs
  obtain ⟨x', a', b', hcore', heffect'⟩ := coreChunk_of_chunkHolds hu
  obtain ⟨hseed, haccA, haccB, hsize⟩ := hasherOf_eq_iff.1 hstream
  rw [hbuild, hseed, haccA, haccB, ← hcore] at hcore'
  simp only [Prod.mk.injEq, BitVec.toNat_inj] at hcore'
  obtain ⟨ha, hb, hx⟩ := hcore'
  refine ⟨_, _, exec_core s, exec_core u, ?_⟩
  rw [heffect, heffect']
  exact hasherOf_eq_iff.2 ⟨hx, ha, hb, hsize⟩

omit hbuild in
/-- The commands that write no streaming register leave the stream as it is. -/
theorem streamsAgreeAfter_of_not_mem {i : Instr} {s' u' : State} (hs : exec i s = .next s') (hu : exec i u = .next u')
    (hi : i ∉ [Instr.init, .initDs, .write, .writei8, .writei16, .writei32, .writei64, .writei128, .core]) :
    StreamsAgreeAfter i s u := by
  have hkeep {v v' : State} (h : exec i v = .next v') : hasherOf v' = hasherOf v := by
    obtain ⟨hseed, haccA, haccB⟩ := exec_stream h hi
    refine hasherOf_eq_iff.2 ⟨hseed, haccA, haccB, exec_size h fun hmem => hi ?_⟩
    simp only [List.mem_cons, List.not_mem_nil] at hmem ⊢
    tauto
  exact ⟨s', u', hs, hu, (hkeep hu).trans (hstream.trans (hkeep hs).symm)⟩

/-- FINISH reads nothing but the stream. -/
theorem finish_res0_congr {s' u' : State} (hs : exec .finish s = .next s') (hu : exec .finish u = .next u') :
    u'.res0 = s'.res0 := by
  obtain ⟨-, haccA, haccB, hsize⟩ := hasherOf_eq_iff.1 hstream
  cases hs
  cases hu
  rw [setResult_res0, setResult_res0, hbuild, haccA, haccB, hsize]

end Congr

/-- Settles O58: command after command, by what it folds; FINISH by what it reads. -/
theorem streamDependsOnlyOnItsRegisters : Obligations.StreamDependsOnlyOnItsRegisters := by
  intro s u i hbuild hseed haccA haccB hsize hchunk harg0 harg1
  have hstream : hasherOf u = hasherOf s := hasherOf_eq_iff.2 ⟨hseed, haccA, haccB, hsize⟩
  have hagree : StreamsAgreeAfter i s u := by
    cases i with
    | init => exact ⟨_, _, exec_init s, exec_init u, by rw [harg0 (by simp)]; rfl⟩
    | initDs => exact ⟨_, _, exec_initDs s, exec_initDs u, by rw [hbuild]; rfl⟩
    | write =>
      obtain ⟨data, hs, hu⟩ := hchunk (by simp)
      exact streamsAgreeAfter_of_foldsBytes hbuild hstream (foldsBytes_write hs) (foldsBytes_write hu)
    | core =>
      obtain ⟨data, hs, hu⟩ := hchunk (by simp)
      exact streamsAgreeAfter_core hbuild hstream hs hu
    | writei8 => exact streamsAgreeAfter_integer (n := 1) hbuild hstream (by decide) (harg0 (by simp)) (by omega)
    | writei16 => exact streamsAgreeAfter_integer (n := 2) hbuild hstream (by decide) (harg0 (by simp)) (by omega)
    | writei32 => exact streamsAgreeAfter_integer (n := 4) hbuild hstream (by decide) (harg0 (by simp)) (by omega)
    | writei64 => exact streamsAgreeAfter_integer (n := 8) hbuild hstream (by decide) (harg0 (by simp)) (by omega)
    | writei128 =>
      exact streamsAgreeAfter_integer (n := 16) hbuild hstream (by decide) (harg0 (by simp)) fun _ => harg1 rfl
    | nop | finish | hash | hashDs | mum | mix | evolve | read32 | read64 =>
      exact streamsAgreeAfter_of_not_mem hstream rfl rfl (by simp)
  obtain ⟨s', u', hs, hu, hstream'⟩ := hagree
  obtain ⟨hseed', haccA', haccB', hsize'⟩ := hasherOf_eq_iff.1 hstream'
  refine ⟨s', u', hs, hu, hseed', haccA', haccB', hsize', ?_⟩
  rintro rfl
  exact finish_res0_congr hbuild hstream hs hu

/-! ### The ends of a stream: INIT, FINISH, no bytes at all (R201, R203, R207, R211) -/

/-- Settles O43: both commands start a stream and check no operand. -/
theorem initStartsAStream : Obligations.InitStartsAStream :=
  ⟨rfl, rfl, fun s => ⟨acceptedAlways_encode (i := .init) rfl rfl s, acceptedAlways_encode (i := .initDs) rfl rfl s,
    exec_init s, exec_initDs s⟩⟩

/-- Settles O48: FINISH writes the results only, which it does not read. -/
theorem finishGivesTheStreamDigest : Obligations.FinishGivesTheStreamDigest :=
  ⟨rfl, fun s => ⟨acceptedAlways_encode (i := .finish) rfl rfl s, finalize s.build s.accA s.accB s.size,
    toNat_finalize .., exec_finish s, exec_finish _⟩⟩

/-- A chunk of length 0 has no bytes, whatever CHUNK_OFF is. -/
theorem chunkHolds_nil {s : State} (h : s.chunkLen = 0) : chunkHolds s [] := by
  simp [chunkHolds, h]

/-- The engine applies only its final step to a chunk of no bytes (R151). -/
theorem compress_of_len_zero (bld : Build) {c : Chunk} (a b seed : Word) (h : c.len = 0) :
    compress bld c a b seed = some (finalStep bld (a, b, seed)) :=
  compress_of_bandStep (bandStep_of_shortStep seed (by omega) (shortStep_of_len_zero a b h))

@[simp] theorem sizeAfter_zero (s : State) : sizeAfter 0 s = s.size := by
  simp [sizeAfter]

/-- A count of no bytes never overflows. -/
@[simp] theorem ovfAfter_zero (s : State) : ovfAfter 0 s = s.ovf := by
  simp [ovfAfter, s.size.isLt]

/-- Settles O55: the chunk has no bytes, so only the seed's evolution and the final step are left. -/
theorem emptyWriteChangesTheState : Obligations.EmptyWriteChangesTheState := by
  refine fun s hlen => ⟨_, rfl, ?_⟩
  rw [exec_write, chunkOf_of_chunkHolds (chunkHolds_nil hlen),
    foldChunk_of_compress (compress_of_len_zero _ _ _ _ rfl), len_map_some, hasUndefined_map_some, List.length_nil,
    sizeAfter_zero, ovfAfter_zero]
  rfl

/-- Settles O56: without accumulators and count `finish` mixes the two secrets. -/
theorem emptyStreamDigest : Obligations.EmptyStreamDigest := by
  refine ⟨fun s haccA haccB hsize => ?_, by decide⟩
  have hdigest : finalize s.build s.accA s.accB s.size = mix s.build.secret0 s.build.secret1 := by
    rw [haccA, haccB, hsize, finalize_zero]
  rw [exec_finish, hdigest]
  rfl

end Sys2Proof.Machine

/-! The statements of 47_primitive_commands: NOP, the products of MUM, MIX and EVOLVE, the readers READ32 and READ64, and CORE (R220 to R226). -/

namespace Sys2Proof.Machine

/-! ### Commands without a chunk (R220 to R223) -/

/-- NOP does nothing. -/
theorem exec_nop (s : State) : exec .nop s = .next s := rfl

/-- Settles O42: NOP checks no operand, and its effect is none. -/
theorem nopCompletesWithNoEffect : Obligations.NopCompletesWithNoEffect :=
  ⟨rfl, fun s => ⟨acceptedAlways_encode (i := .nop) rfl rfl s, exec_nop s⟩⟩

/-- MUM gives the two halves of the product. -/
theorem exec_mum (s : State) : exec .mum s = .next (s.setResult (mum s.arg0 s.arg1).1 (mum s.arg0 s.arg1).2) := rfl

/-- MIX gives the fold of the two halves. -/
theorem exec_mix (s : State) : exec .mix s = .next (s.setResult (mix s.arg0 s.arg1) 0) := rfl

/-- EVOLVE gives the evolved seed. -/
theorem exec_evolve (s : State) : exec .evolve s = .next (s.setResult (evolveSeed s.build s.arg0 s.arg1) 0) := rfl

/-- Settles O51: the halves that `mum` gives make up the exact product, and `mix` folds them. -/
theorem primitiveProducts : Obligations.PrimitiveProducts :=
  ⟨rfl, rfl, rfl, fun s => ⟨acceptedAlways_encode (i := .mum) rfl rfl s, acceptedAlways_encode (i := .mix) rfl rfl s,
    acceptedAlways_encode (i := .evolve) rfl rfl s, _, _, _, _, mum_exact s.arg0 s.arg1,
    mum_exact (s.arg0 ^^^ s.build.secret0) s.build.secret1, exec_mum s, exec_mix s, exec_evolve s⟩⟩

/-! ### The readers READ32 and READ64 (R224, R225) -/

/-- A CMD write goes to acceptance (R282). -/
theorem hostWriteAt_cmd (c : Word) (s : State) : hostWriteAt 0x010 8 c s = accept c s :=
  hostWriteAt_regAt (r := .cmd) rfl c s

/-- The operand checks of every command, in the order of R243. -/
theorem operandCheck_eq (i : Instr) (s : State) : operandCheck i s =
    if usesChunk i = true ∧ s.build.bufBytes < s.chunkOff.toNat + s.chunkLen.toNat then some .chunkRange
    else if i = .read32 ∧ s.chunkLen.toNat < s.arg0.toNat + 4 then some .readBounds
    else if i = .read64 ∧ s.chunkLen.toNat < s.arg0.toNat + 8 then some .readBounds
    else none := by
  unfold operandCheck chunkOutOfRange readOutOfBounds
  simp only [Bool.and_eq_true, decide_eq_true_eq, bne_iff_ne]
  cases i <;> simp [usesChunk, readWidth]

/-- The chunk's range and then the reader's bound are the checks of a reader. -/
theorem operandCheck_of_mem_readWidths {i : Instr} {w : Nat} (h : (i, w) ∈ readWidths) (s : State) :
    operandCheck i s =
      if s.build.bufBytes < s.chunkOff.toNat + s.chunkLen.toNat then some .chunkRange
      else if s.chunkLen.toNat < s.arg0.toNat + w then some .readBounds
      else none := by
  simp only [readWidths, List.mem_cons, Prod.mk.injEq, List.not_mem_nil, or_false] at h
  obtain ⟨rfl, rfl⟩ | ⟨rfl, rfl⟩ := h <;> simp [operandCheck_eq, usesChunk]

/-- A reader is accepted as the safety predicate says. -/
theorem acceptedInBounds_of_mem_readWidths {i : Instr} {w : Nat} (h : (i, w) ∈ readWidths) (s : State) :
    acceptedInBounds w (encode i) s := by
  intro hidle herr
  rw [hostWriteAt_cmd, accept_encode i hidle herr, operandCheck_of_mem_readWidths h]
  split_ifs
  · exact raise_of_err_zero .chunkRange herr
  · exact raise_of_err_zero .readBounds herr
  · rfl

/-- A reader inside a defined chunk gives its bytes in RES0 and 0 in RES1, and there is nothing to note. -/
theorem exec_reader_of_chunkHolds {i : Instr} {w : Nat} {s : State} {data : List Byte} (hi : (i, w) ∈ readWidths)
    (h : chunkHolds s data) (hbound : s.arg0.toNat + w ≤ data.length) :
    exec i s = .next { s with
      res0 := BitVec.ofNat 64 ((⟨data.map some, s.draws⟩ : Chunk).memRead 0 s.arg0.toNat w)
      res1 := 0 } := by
  rw [exec_of_mem_readWidths hi (h.1 ▸ hbound), chunkOf_of_chunkHolds h, hasUndefined_map_some]
  rfl

/-- Eight bytes of a defined chunk are the pseudocode's 64-bit word. -/
theorem memRead_eight_map_some {data : List Byte} {d o : Nat} (site : Nat) (h : o + 8 ≤ data.length) :
    (⟨data.map some, d⟩ : Chunk).memRead site o 8 = Reference.rd64 data o := by
  rw [memRead_add _ site o 4 4, memRead_four_map_some site (by omega), memRead_four_map_some site (by omega),
    reference_rd64_eq_halves]

/-- A read of at most 8 bytes fits the register that takes it. -/
theorem toNat_ofNat_memRead (c : Chunk) (site o : Nat) {w : Nat} (hw : w ≤ 8) :
    (BitVec.ofNat 64 (c.memRead site o w)).toNat = c.memRead site o w := by
  rw [BitVec.toNat_ofNat, Nat.mod_eq_of_lt]
  exact lt_of_lt_of_le (memRead_lt c site o w) (Nat.pow_le_pow_right (by decide) (by omega))

/-- Settles O52: both readers read the pseudocode's number, after the chunk's range and their bound are checked. -/
theorem readCommandsGiveChunkBytes : Obligations.ReadCommandsGiveChunkBytes := by
  have h32 : (Instr.read32, 4) ∈ readWidths := by decide
  have h64 : (Instr.read64, 8) ∈ readWidths := by decide
  refine ⟨rfl, rfl, fun s => ⟨acceptedInBounds_of_mem_readWidths h32 s, acceptedInBounds_of_mem_readWidths h64 s⟩,
    fun s data hs hbound => ⟨_, ?_, exec_reader_of_chunkHolds h32 hs hbound⟩,
    fun s data hs hbound => ⟨_, ?_, exec_reader_of_chunkHolds h64 hs hbound⟩⟩
  · rw [toNat_ofNat_memRead _ _ _ (by decide), memRead_four_map_some 0 hbound]
  · rw [toNat_ofNat_memRead _ _ _ (by decide), memRead_eight_map_some 0 hbound]

/-! ### CORE (R226) -/

/-- CORE writes what the engine answers. -/
theorem coreChunk_of_compress {c : Chunk} {s : State} {a b x : Word}
    (h : compress s.build c s.accA s.accB s.seed = some (a, b, x)) :
    coreChunk c s = ((s.setStream x a b s.size).setBand c.len).noteRead c.hasUndefined := by
  rw [coreChunk, h]

/-- Band 1 leaves `b` and the seed alone, so the final product of a zero `b` and a zero seed is zero (R152, R161). -/
theorem compress_zero_of_band1 (bld : Build) {c : Chunk} (a : Word) (hpos : 1 ≤ c.len) (hle : c.len ≤ 3) :
    compress bld c a 0 0 = some (0, 0, 0) := by
  obtain ⟨w, hw⟩ := band1Word_answers (c := c) (by omega)
  rw [compress_of_bandStep (bandStep_of_shortStep 0 (by omega) (shortStep_of_band1 a 0 hpos hle hw))]
  have hproduct : mum (a ^^^ w ^^^ bld.secret1) (0 ^^^ 0) = (0, 0) := (mum_comm _ _).trans (mum_zero_left _)
  rw [finalStep, hproduct]

/-- Settles O53: CORE is the engine on the streaming registers; the zeros come from the final product. -/
theorem coreCommandRunsTheEngine : Obligations.CoreCommandRunsTheEngine := by
  refine ⟨rfl, fun s => acceptedInRange_encode (i := .core) rfl rfl s, fun s data hs => ?_,
    fun s hs => ⟨_, exec_core s, (exec_chunk_fault (by simp) (exec_core s)).2 (.inr hs)⟩,
    fun s hpos hle hseed haccA haccB => ?_⟩
  · obtain ⟨x, a, b, hcore, heffect⟩ := coreChunk_of_chunkHolds hs
    exact ⟨x, a, b, hcore, by rw [exec_core, heffect]⟩
  · have hzero : compress s.build (chunkOf s) s.accA s.accB s.seed = some (0, 0, 0) := by
      rw [haccB, hseed]
      exact compress_zero_of_band1 s.build s.accA (by simpa using hpos) (by simpa using hle)
    exact ⟨_, exec_core s, by simp [coreChunk_of_compress hzero]⟩

/-- Settles O54: both commands ask the engine for the same values, and WRITE alone writes OVF. -/
theorem evolveThenCoreEqualsWrite : Obligations.EvolveThenCoreEqualsWrite := by
  intro s data hs
  have hlen : (chunkOf s).len = data.length := by rw [chunkOf_len, hs.1]
  obtain ⟨a, b, x, hcompress⟩ := compress_answers s.build (chunkOf s) s.accA s.accB
    (evolveSeed s.build s.seed (sizeAfter (chunkOf s).len s))
  refine ⟨_, _, exec_write s, exec_core _, ?_⟩
  rw [foldChunk_of_compress hcompress, ← hlen]
  have hcore := coreChunk_of_compress (s := { s with
    size := sizeAfter (chunkOf s).len s
    seed := evolveSeed s.build s.seed (sizeAfter (chunkOf s).len s) }) hcompress
  exact congrArg (fun u : State => { u with ovf := ovfAfter (chunkOf s).len s }) hcore.symm

end Sys2Proof.Machine

/-! The statements of 60_exceptions: every command completes (R241, R246), the one stop of a step (R241, R62), and the checks of acceptance in their order (R243). -/

namespace Sys2Proof.Machine

/-! ### Every command completes (R241, R246) -/

/-- No command stops the machine. -/
theorem exec_answers (i : Instr) (s : State) : ∃ t, exec i s = .next t := by
  cases i <;> exact ⟨_, rfl⟩

/-- Settles O12: each arm of `exec` answers a next state, and an admitted command raises nothing. -/
theorem everyCommandCompletes : Obligations.EveryCommandCompletes := fun i s =>
  let ⟨t, ht⟩ := exec_answers i s
  ⟨t, ht, exec_err ht⟩

/-! ### The window of the port (R62) -/

/-- The width of the port is the ceiling of the logarithm that R62 writes. -/
theorem portWidth_eq_clog (b : Build) : portWidth b = Nat.clog 2 (0x1000 + b.bufBytes) := by
  refine eq_of_forall_ge_iff fun y => ?_
  rw [Nat.clog_le_iff_le_pow (by decide), portWidth, Nat.add_one_le_iff, Nat.log2_lt (by omega)]
  omega

/-- An offset is in the window exactly where the port's width reaches it. -/
theorem portOffset_base_add (b : Build) (off : Nat) :
    portOffset b (b.base + off) = if off < 2 ^ Nat.clog 2 (0x1000 + b.bufBytes) then some off else none := by
  simp [portOffset, portWidth_eq_clog]

/-- The port's width reaches the end of IBUF. -/
theorem portOffset_base_of_lt {b : Build} {off : Nat} (h : off < 0x1000 + b.bufBytes) :
    portOffset b (b.base + off) = some off := by
  rw [portOffset_base_add, if_pos (h.trans_le (Nat.le_pow_clog (by decide) _))]

/-- An address below BASE is no offset. -/
theorem portOffset_of_lt_base {b : Build} {addr : Nat} (h : addr < b.base) : portOffset b addr = none :=
  if_neg fun hin => absurd hin.1 (Nat.not_le.2 h)

/-! ### What stops a step (R241) -/

/-- Of the moves, a host access outside the window stops the machine. -/
theorem perform_outside_window {m : Move} {s : State} (h : ¬ m.inWindow s.build) :
    perform m s = .fault .outsideWindow := by
  cases m with
  | hostWrite addr w v | hostRead addr w =>
    have hnone : portOffset s.build addr = none := by simpa [Move.inWindow] using h
    simp [perform, hostWrite, hostRead, hnone]
  | complete | reset => exact absurd trivial h

/-- A busy block that meets the invariant has a command to complete. -/
theorem State.Inv.command_of_exec {s : State} (h : s.Inv) (hs : s.fsm = .exec) :
    ∃ c i, s.pend = some c ∧ decode c = .ok i := by
  obtain ⟨c, hc⟩ := Option.isSome_iff_exists.1 (h.latch.1 hs)
  obtain ⟨i, hd, -⟩ := h.pending c hc
  exact ⟨c, i, hc, hd⟩

theorem complete_answers {s : State} (h : s.Inv) (hs : s.fsm = .exec) : ∃ t, complete s = .next t := by
  obtain ⟨c, i, hc, hd⟩ := h.command_of_exec hs
  obtain ⟨t, ht⟩ := exec_answers i s
  exact ⟨t.retire, by simp [complete, hc, hd, ht]⟩

/-- Inside the window every move answers a next state. -/
theorem perform_answers {m : Move} {s : State} (h : s.Inv) (hm : m.inWindow s.build) : ∃ t, perform m s = .next t := by
  cases m with
  | hostWrite addr w v =>
    obtain ⟨off, hoff⟩ := Option.isSome_iff_exists.1 hm
    exact ⟨hostWriteAt off w v s, by simp [perform, hostWrite, hoff]⟩
  | hostRead addr w =>
    obtain ⟨off, hoff⟩ := Option.isSome_iff_exists.1 hm
    exact ⟨hostReadAt off w s, by simp [perform, hostRead, hoff]⟩
  | complete =>
    by_cases hs : s.fsm = .exec
    · simpa [perform, hs] using complete_answers h hs
    · exact ⟨s, by simp [perform, hs]⟩
  | reset => exact ⟨s.resetAll, rfl⟩

/-- A step answers a next state unless its move reaches outside the window. -/
theorem step_answers {s : State} (h : s.Inv) (hin : ∀ m, nextMove s = some m → m.inWindow s.build) :
    ∃ t, step s = .next t := by
  unfold step
  split
  · exact ⟨s, rfl⟩
  · rename_i m hm
    obtain ⟨t, ht⟩ := perform_answers h (hin m hm)
    exact ⟨t.popMove, by rw [ht, onNext_next]⟩

/-- Settles O14: a step stops on its move alone, and the window is the range of the port's width above BASE. -/
theorem stepStopsOnlyOutsideTheWindow : Obligations.StepStopsOnlyOutsideTheWindow := by
  refine ⟨fun s h => ?_, fun _ _ _ => portOffset_base_of_lt, portOffset_base_add, fun _ _ => portOffset_of_lt_base⟩
  by_cases hin : ∀ m, nextMove s = some m → m.inWindow s.build
  · exact .inl (step_answers h hin)
  · push Not at hin
    obtain ⟨m, hm, hout⟩ := hin
    exact .inr ⟨by simp [step, hm, perform_outside_window hout], m, hm, hout⟩

/-! ### Acceptance in order (R243) -/

/-- A halted block discards a command (R244). -/
theorem accept_of_halted (c : Word) {s : State} (hidle : s.fsm = .idle) (herr : s.err ≠ 0) : accept c s = s := by
  rw [accept, if_neg (by simp [hidle]), if_pos herr]

/-- Two commands have one word only if they are the same. -/
theorem encode_inj {i j : Instr} : encode i = encode j ↔ i = j := by
  rw [← decode_eq_ok_iff, decode_encode, Except.ok.injEq]

/-- The words of the chunk commands (R96). -/
theorem encode_mem_chunkWords (i : Instr) :
    encode i ∈ ([0x002, 0x005, 0x105, 0x015, 0x013, 0x014] : List Word) ↔ usesChunk i = true := by
  cases i <;> decide

/-- In an idle block without error a command meets the checks of its operands, named by its word. -/
theorem accept_encode_in_order (i : Instr) {s : State} (hidle : s.fsm = .idle) (herr : s.err = 0) :
    accept (encode i) s =
      if encode i ∈ ([0x002, 0x005, 0x105, 0x015, 0x013, 0x014] : List Word) ∧
          s.build.bufBytes < s.chunkOff.toNat + s.chunkLen.toNat then s.raise .chunkRange
      else if encode i = 0x013 ∧ s.chunkLen.toNat < s.arg0.toNat + 4 then s.raise .readBounds
      else if encode i = 0x014 ∧ s.chunkLen.toNat < s.arg0.toNat + 8 then s.raise .readBounds
      else s.latch (encode i) := by
  have h32 : encode i = 0x013 ↔ i = .read32 := encode_inj (j := .read32)
  have h64 : encode i = 0x014 ↔ i = .read64 := encode_inj (j := .read64)
  simp only [accept_encode i hidle herr, operandCheck_eq, encode_mem_chunkWords, h32, h64]
  split_ifs <;> rfl

/-- Settles O19: the checks of the FSM, of ERR and of the word, and then those of the command's operands. -/
theorem acceptanceChecksInOrder : Obligations.AcceptanceChecksInOrder := by
  intro c s
  rw [hostWriteAt_cmd]
  by_cases hexec : s.fsm = .exec
  · rw [if_pos hexec, accept_of_exec c hexec]
  have hidle := fsm_eq_idle_of_ne_exec hexec
  rw [if_neg hexec]
  by_cases herr : s.err = 0
  · rw [if_neg (not_not.2 herr)]
    by_cases hlegal : c ∈ commands.map encode
    · obtain ⟨i, hi⟩ := exists_decode_iff_mem.2 hlegal
      obtain rfl := decode_eq_ok_iff.1 hi
      exact (accept_encode_in_order i hidle herr).trans (if_neg (not_not.2 hlegal)).symm
    · exact (accept_of_illegal (fun i hi => hlegal (exists_decode_iff_mem.1 ⟨i, hi⟩)) hidle herr).trans
        (if_pos hlegal).symm
  · rw [if_pos herr, accept_of_halted c hidle herr]

end Sys2Proof.Machine

/-! The statements of 70_reset_and_hazards: reset and its values (R270 to R273), completion (R281), host accesses while busy (R283, R284), a command lost for want of a wait (R286), and the end of every run (R287). -/

namespace Sys2Proof.Machine

/-! ### Reset (R270, R271, R273) -/

/-- PARAM shows BUF_BYTES whole: R9 keeps it at most 2^20. -/
theorem toNat_readReg_param {s : State} (h : s.build.wf = true) : (readReg .param s).toNat = s.build.bufBytes := by
  simp only [Build.wf, Build.bufInRange, Bool.and_eq_true, decide_eq_true_eq] at h
  simp only [readReg, BitVec.toNat_setWidth, BitVec.toNat_ofNat]
  omega

/-- Settles O4: the fields of `resetWith`, which State.reset is for the default build. -/
theorem resetLeavesTheSpecValues : Obligations.ResetLeavesTheSpecValues := by
  refine ⟨⟨Build.default, [], [], 0, by decide, rfl⟩, fun b moves ret n => ?_⟩
  have hstatus : statusOf (State.resetWith b moves ret n) = 0 := (by decide : statusWord false false 0 0 = 0)
  exact ⟨rfl, rfl, rfl, hstatus, rfl, rfl, rfl, rfl, rfl, rfl, rfl, rfl, rfl, rfl, rfl, rfl, rfl, fun _ => rfl, rfl,
    rfl, fun h => toNat_readReg_param h, rfl, rfl, rfl, rfl, rfl, exec_initDs _⟩

/-- Reset gives a clean entry on every build. -/
theorem cleanEntry_resetWith (b : Build) (moves : List Move) (ret : List Word) (n : Nat) :
    (State.resetWith b moves ret n).CleanEntry := ⟨rfl, rfl, rfl, rfl, rfl⟩

/-- Reset establishes the invariant on every build that meets R9, whatever the host has to come. -/
theorem inv_resetWith {b : Build} (h : b.wf = true) (moves : List Move) (ret : List Word) (n : Nat) :
    (State.resetWith b moves ret n).Inv :=
  .of_idle h rfl rfl (.inl rfl) (Nat.zero_le _) (memWf_nil _)

/-- Settles O8: State.reset is the reset state of the default build, which meets R9. -/
theorem resetMeetsTheInvariant : Obligations.ResetMeetsTheInvariant :=
  ⟨inv_resetWith (by decide) .., cleanEntry_resetWith .., ⟨rfl, rfl, rfl, rfl, rfl⟩,
    fun b moves ret n h => ⟨inv_resetWith h moves ret n, cleanEntry_resetWith b moves ret n⟩⟩

/-- The step of a reset. -/
theorem step_reset {s : State} {rest : List Move} (ha : s.agenda = .reset :: rest) :
    step s = .next s.resetAll.popMove := by
  simp only [step, nextMove, ha, perform, onNext]

/-- Settles O5: a reset is one step; the host's restart is a STATUS write, and then the command INIT.DS. -/
theorem resetAbandonsTheCommandAndHostCanRestart : Obligations.ResetAbandonsTheCommandAndHostCanRestart := by
  refine ⟨fun s rest ha => ?_, fun s hidle hpend ha => ?_⟩
  · rw [step_reset ha]
    simp only [State.popMove, State.resetAll, State.resetWith, ha, List.tail_cons]
  · have hclear : step s = .next (statusWrite 0xA s).popMove := by
      rw [← hostWriteAt_status]
      exact step_hostWrite ha (portOffset_base (by decide))
    have hrun := run_last_command (s := (statusWrite 0xA s).popMove) hidle rfl
      (operandCheck_of_not_usesChunk rfl rfl _) (congrArg List.tail ha) (exec_initDs _)
    rw [run_succ_of_next 2 hclear, hrun, statusWrite_eq]
    simp [startStream, State.setStream, State.latch, State.retire, State.popMove, ha, hidle, hpend, scriptStore,
      scriptCmd]

/-! ### Completion (R281) -/

/-- Where the completion is written first or the agenda is empty, a busy block completes. -/
theorem nextMove_complete {s : State} (hs : s.fsm = .exec) (ha : s.agenda = [] ∨ ∃ rest, s.agenda = .complete :: rest) :
    nextMove s = some .complete := by
  obtain ha | ⟨rest, ha⟩ := ha <;> simp [nextMove, ha, hs]

/-- Settles O6: the step of a completion, whose command always answers. -/
theorem stepRunsTheLatchedCommand : Obligations.StepRunsTheLatchedCommand := by
  intro s c i hs hp hd ha
  obtain ⟨t, ht⟩ := exec_answers i s
  rw [step_complete (nextMove_complete hs ha) hs hp hd ht, ht]
  rfl

/-! ### What a command does not read (R244, R281) -/

/-- The state with another ERR and other moves to come. -/
def State.withErrAgenda (e : BitVec 4) (moves : List Move) (s : State) : State := { s with err := e, agenda := moves }

section WithErrAgenda

variable (e : BitVec 4) (moves : List Move)

theorem foldChunk_withErrAgenda (c : Chunk) (s : State) :
    foldChunk c (s.withErrAgenda e moves) = (foldChunk c s).withErrAgenda e moves := by
  obtain ⟨a, b, x, h⟩ := compress_answers s.build c s.accA s.accB (evolveSeed s.build s.seed (sizeAfter c.len s))
  rw [foldChunk_of_compress h]
  exact foldChunk_of_compress (s := s.withErrAgenda e moves) h

theorem coreChunk_withErrAgenda (c : Chunk) (s : State) :
    coreChunk c (s.withErrAgenda e moves) = (coreChunk c s).withErrAgenda e moves := by
  obtain ⟨a, b, x, h⟩ := compress_answers s.build c s.accA s.accB s.seed
  rw [coreChunk_of_compress h]
  exact coreChunk_of_compress (s := s.withErrAgenda e moves) h

/-- HASH writes the digest of what the engine answers. -/
theorem hashChunk_of_compress {seed : Word} {c : Chunk} {s : State} {a b x : Word}
    (h : compress s.build c 0 0 (evolveSeed s.build seed (BitVec.ofNat 64 c.len)) = some (a, b, x)) :
    hashChunk seed c s = ((s.setResult (finalize s.build a b (BitVec.ofNat 64 c.len)) 0).setBand c.len).noteRead
      c.hasUndefined := by
  rw [hashChunk, h]

theorem hashChunk_withErrAgenda (seed : Word) (c : Chunk) (s : State) :
    hashChunk seed c (s.withErrAgenda e moves) = (hashChunk seed c s).withErrAgenda e moves := by
  obtain ⟨a, b, x, h⟩ := compress_answers s.build c 0 0 (evolveSeed s.build seed (BitVec.ofNat 64 c.len))
  rw [hashChunk_of_compress h]
  exact hashChunk_of_compress (s := s.withErrAgenda e moves) h

/-- A reader whose checks hold does not raise INTERNAL, so it too leaves ERR as it is. -/
theorem exec_reader_withErrAgenda {i : Instr} {w : Nat} {s : State} (hi : (i, w) ∈ readWidths)
    (hbound : s.arg0.toNat + w ≤ s.chunkLen.toNat) :
    exec i (s.withErrAgenda e moves) = onNext (State.withErrAgenda e moves) (exec i s) := by
  rw [exec_of_mem_readWidths hi hbound]
  exact exec_of_mem_readWidths (s := s.withErrAgenda e moves) hi hbound

/-- A command whose operand checks hold neither reads nor writes ERR and the moves to come. -/
theorem exec_withErrAgenda {i : Instr} {s : State} (h : operandCheck i s = none) :
    exec i (s.withErrAgenda e moves) = onNext (State.withErrAgenda e moves) (exec i s) := by
  have hbound := (operandCheck_eq_none.1 h).2
  cases i with
  | nop | init | initDs | finish | mum | mix | evolve => rfl
  | write | writei8 | writei16 | writei32 | writei64 | writei128 =>
    exact congrArg Host.Outcome.next (foldChunk_withErrAgenda e moves _ s)
  | hash | hashDs => exact congrArg Host.Outcome.next (hashChunk_withErrAgenda e moves _ _ s)
  | core => exact congrArg Host.Outcome.next (coreChunk_withErrAgenda e moves _ s)
  | read32 | read64 => exact exec_reader_withErrAgenda e moves (by decide) (hbound (by decide))

end WithErrAgenda

/-- Settles O20: a command leaves the moves alone, so replacing ERR alone replaces nothing else. -/
theorem completionIgnoresErr : Obligations.CompletionIgnoresErr := by
  intro i s e h
  obtain ⟨t, ht⟩ := exec_answers i s
  have hkeep : t.agenda = s.agenda := (exec_sameOperands ht).agenda
  have hexec : exec i { s with err := e } = onNext (State.withErrAgenda e s.agenda) (exec i s) :=
    exec_withErrAgenda e s.agenda h
  rw [hexec, ht, onNext_next, onNext_next, State.withErrAgenda, ← hkeep]

/-! ### A command without a wait (R286) -/

/-- Settles O21: BUSY_ACCESS stands when the first command has completed, and halts the block for the third word. -/
theorem secondCommandWithoutWaitIsLost : Obligations.SecondCommandWithoutWaitIsLost := by
  intro s t c second third i hs hp hd hcheck herr ha ht
  have hrejected : step s = .next (s.withErrAgenda 4 s.agenda.tail) := by
    have hwrite : hostWriteAt 0x010 8 second s = { s with err := 4 } := by
      rw [hostWriteAt_cmd, accept_of_exec second hs]
      exact raise_of_err_zero .busyAccess herr
    rw [step_hostWrite ha (portOffset_base (by decide)), hwrite]
    rfl
  have hcompleted : step (s.withErrAgenda 4 s.agenda.tail)
      = .next (t.withErrAgenda 4 s.agenda.tail).retire.popMove := by
    refine step_complete (nextMove_complete hs (.inr ⟨_, congrArg List.tail ha⟩)) hs hp hd ?_
    rw [exec_withErrAgenda 4 _ hcheck, ht, onNext_next]
  have hdiscarded : step (t.withErrAgenda 4 s.agenda.tail).retire.popMove
      = .next (t.withErrAgenda 4 s.agenda.tail).retire.popMove.popMove := by
    have hagenda : s.agenda.tail.tail = scriptStore t.build 8 0x010 third := by rw [ha, exec_build ht]; rfl
    rw [step_hostWrite hagenda (portOffset_base (by decide)), hostWriteAt_cmd,
      accept_of_halted third rfl (show (4 : BitVec 4) ≠ 0 by decide)]
  rw [run_succ_of_next 2 hrejected, run_succ_of_next 1 hcompleted, run_succ_of_next 0 hdiscarded, run_zero]
  have hlast : s.agenda.tail.tail.tail = [] := by rw [ha]; rfl
  simp only [State.withErrAgenda, State.retire, State.popMove, hlast]

/-! ### Every run comes to its end (R274, R287) -/

@[simp] theorem accept_agenda (c : Word) (s : State) : (accept c s).agenda = s.agenda := by
  obtain ⟨_, h, -⟩ | ⟨-, -, h⟩ | ⟨-, -, _, -, -, h⟩ := accept_cases c s <;> simp [h]

@[simp] theorem hostWriteAt_agenda (off width : Nat) (v : Word) (s : State) :
    (hostWriteAt off width v s).agenda = s.agenda := by
  obtain h | h | h | ⟨-, -, _, -, h⟩ | ⟨-, -, h⟩ | ⟨-, -, h⟩ | ⟨-, -, _, -, -, h⟩ :=
    hostWriteAt_cases off width v s <;> simp [h]

@[simp] theorem hostReadAt_agenda (off width : Nat) (s : State) : (hostReadAt off width s).agenda = s.agenda := by
  obtain ⟨-, h⟩ | ⟨-, _, _, h⟩ := hostReadAt_cases off width s <;> simp [h]

/-- A step takes its move off the agenda. -/
theorem step_agenda {s t : State} (h : step s = .next t) : t.agenda = s.agenda.tail := by
  obtain ⟨hm, rfl⟩ | ⟨_, _, _, _, -, -, rfl⟩ | ⟨_, _, _, -, -, rfl⟩ | ⟨-, -, rfl⟩ |
    ⟨-, -, _, _, _, -, -, hexec, rfl⟩ | ⟨-, rfl⟩ := step_cases h
  · cases ha : t.agenda with
    | nil => rfl
    | cons m rest => simp [nextMove, ha] at hm
  · simp
  · simp
  · simp
  · simp [(exec_sameOperands hexec).agenda]
  · simp

/-- With no move left, one more step leaves the block idle with nothing pending. -/
theorem step_of_agenda_nil {s : State} (h : s.Inv) (ha : s.agenda = []) :
    ∃ t, step s = .next t ∧ t.fsm = .idle ∧ t.pend = none ∧ t.agenda = [] := by
  by_cases hs : s.fsm = .exec
  · obtain ⟨c, i, hc, hd⟩ := h.command_of_exec hs
    obtain ⟨t, ht⟩ := exec_answers i s
    exact ⟨_, step_complete (nextMove_complete hs (.inl ha)) hs hc hd ht, rfl, rfl,
      by simp [(exec_sameOperands ht).agenda, ha]⟩
  · have hidle := fsm_eq_idle_of_ne_exec hs
    exact ⟨s, by simp [step, nextMove, ha, hs], hidle, h.pend_of_idle hidle, ha⟩

/-- Settles O13: each step takes one move, and the step after the last one completes what is pending. -/
theorem everyRunReachesIdle : Obligations.EveryRunReachesIdle := by
  intro s
  generalize hmoves : s.agenda = moves
  induction moves generalizing s with
  | nil =>
    intro h _
    obtain ⟨t, hstep, hend⟩ := step_of_agenda_nil h hmoves
    exact ⟨t, run_succ_of_next 0 hstep, hend⟩
  | cons m rest ih =>
    intro h hin
    obtain ⟨t, hstep⟩ := step_answers h fun m' hm' => by
      obtain rfl : m = m' := by simpa [nextMove, hmoves] using hm'
      exact hin m List.mem_cons_self
    have hrest : t.agenda = rest := by rw [step_agenda hstep, hmoves, List.tail_cons]
    rw [List.length_cons, run_succ_of_next _ hstep]
    refine ih t hrest (stepKeepsTheInvariant s t h hstep) fun m' hm' => ?_
    rw [step_build hstep]
    exact hin m' (List.mem_cons_of_mem m hm')

/-! ### Host writes while busy (R283) -/

/-- A legal access to an offset of no register and no IBUF byte does nothing on a write and reads 0, busy or not (R72). -/
theorem access_inert {off w : Nat} {s : State} (haligned : off % w = 0)
    (hoff : (0x090 ≤ off ∧ off < 0x1000 ∧ w = 8) ∨ (0x1000 + s.build.bufBytes ≤ off ∧ w ∈ [1, 2, 4, 8])) (v : Word) :
    hostWriteAt off w v s = s ∧ hostReadAt off w s = s.give 0 := by
  obtain ⟨hlow, hhigh, rfl⟩ | ⟨habove, hw⟩ := hoff
  · exact (reservedAndUnmappedOffsetsAreInert off 8 v s (.inl ⟨hlow, hhigh⟩)).1 (by decide) haligned fun _ => rfl
  · exact (reservedAndUnmappedOffsetsAreInert off w v s (.inr habove)).1 hw haligned (by omega)

/-- The registers whose writes are rejected while busy: CMD and the read/write registers. -/
def protectedRegisters : List (Nat × Reg) :=
  [(0x010, .cmd), (0x020, .seed), (0x028, .accA), (0x030, .accB), (0x038, .size), (0x040, .arg0), (0x048, .arg1),
    (0x050, .chunkOff), (0x058, .chunkLen)]

theorem regAt_of_mem_protectedRegisters : ∀ p ∈ protectedRegisters,
    regAt p.1 = some p.2 ∧ (p.2 = .cmd ∨ hostWritable p.2 = true) := by decide

/-- While busy, a write to a protected register is rejected. -/
theorem hostWriteAt_protected_of_exec {off : Nat} {r : Reg} (hr : regAt off = some r)
    (hprotected : r = .cmd ∨ hostWritable r = true) (v : Word) {s : State} (hs : s.fsm = .exec) :
    hostWriteAt off 8 v s = s.raise .busyAccess := by
  rw [hostWriteAt_regAt hr, writeRegister, hr]
  obtain rfl | hw := hprotected
  · exact accept_of_exec v hs
  · cases r <;> simp_all [hostWritable]

/-- While busy, a legal write to IBUF is rejected. -/
theorem hostWriteAt_ibuf_of_exec {off width : Nat} {s : State} (hs : s.fsm = .exec) (hw : width ∈ [1, 2, 4, 8])
    (haligned : off % width = 0) (hlow : 0x1000 ≤ off) (hhigh : off < 0x1000 + s.build.bufBytes) (v : Word) :
    hostWriteAt off width v s = s.raise .busyAccess := by
  have hlegal : badAccess off width = false := badAccess_eq_false.2 ⟨hw, haligned, by omega⟩
  have hindex : ibufIndex s.build off = some (off - 0x1000) := ibufIndex_eq_some.2 (by omega)
  simp [hostWriteAt, hlegal, hindex, writeIbuf, hs]

/-- Settles O24: protected registers, IBUF, STATUS, read-only registers, and offsets of nothing. -/
theorem busyWritesAreRejected : Obligations.BusyWritesAreRejected := by
  intro s v hs
  have rejected : ∀ off ∈ protectedRegisters.map Prod.fst, hostWriteAt off 8 v s = s.raise .busyAccess :=
    List.forall_mem_map.2 fun q hq => by
      obtain ⟨hr, hprotected⟩ := regAt_of_mem_protectedRegisters q hq
      exact hostWriteAt_protected_of_exec hr hprotected v hs
  have ignored : ∀ off ∈ readOnlyRegisters.map Prod.fst, hostWriteAt off 8 v s = s :=
    List.forall_mem_map.2 fun q hq => by
      obtain ⟨hr, hw, hcmd, hstatus⟩ := regAt_of_mem_readOnlyRegisters q hq
      exact hostWriteAt_of_readOnly hr hw hcmd hstatus v s
  exact ⟨rejected, fun _ _ hw haligned hlow hhigh => hostWriteAt_ibuf_of_exec hs hw haligned hlow hhigh v,
    (hostWriteAt_status v s).trans (statusWrite_eq v s), ignored, fun _ _ hoff haligned => (access_inert haligned hoff v).1⟩

/-! ### Host reads while busy (R284) -/

/-- A read of a register that R284 does not leave open gives its value. -/
theorem readRegister_of_exact {r : Reg} (hstatus : r ≠ .status) (hexact : unspecifiedWhileBusy r = false) (s : State) :
    readRegister r s = s.give (readReg r s) := by
  simp [readRegister, hstatus, hexact]

/-- While busy, a read of a register that R284 leaves open takes a draw. -/
theorem readRegister_of_unspecified {r : Reg} (hr : unspecifiedWhileBusy r = true) {s : State} (hs : s.fsm = .exec) :
    readRegister r s = (s.give (Config.freeWord s.draws)).drawIf true := by
  have hstatus : r ≠ .status := by rintro rfl; cases hr
  simp [readRegister, hstatus, hr, hs]

/-- The registers that read exactly while busy: the constants, CMD and the operands of commands. -/
def exactRegisters : List (Nat × Reg) :=
  [(0x000, .id), (0x008, .param), (0x010, .cmd), (0x040, .arg0), (0x048, .arg1), (0x050, .chunkOff), (0x058, .chunkLen),
    (0x070, .secret0), (0x078, .secret1), (0x080, .secret2), (0x088, .dseed)]

theorem regAt_of_mem_exactRegisters : ∀ p ∈ exactRegisters,
    regAt p.1 = some p.2 ∧ p.2 ≠ .status ∧ unspecifiedWhileBusy p.2 = false := by decide

/-- The registers that a command may be writing while busy. -/
def unspecifiedRegisters : List (Nat × Reg) :=
  [(0x020, .seed), (0x028, .accA), (0x030, .accB), (0x038, .size), (0x060, .res0), (0x068, .res1)]

theorem regAt_of_mem_unspecifiedRegisters : ∀ p ∈ unspecifiedRegisters,
    regAt p.1 = some p.2 ∧ unspecifiedWhileBusy p.2 = true := by decide

/-- A read of STATUS while busy: BUSY and ERR exactly, and the reserved bits 0. -/
theorem hostReadAt_status_of_exec {s : State} (hs : s.fsm = .exec) :
    ∃ v : Word, hostReadAt 0x018 8 s = { s with returned := v :: s.returned, draws := s.draws + 1 } ∧
      v.getLsbD 0 = true ∧ v.getLsbD 2 = false ∧ v.getLsbD 3 = false ∧ v.extractLsb' 4 4 = s.err ∧
      v.extractLsb' 12 52 = 0 := by
  refine ⟨statusDrawn s, ?_, by simp [statusDrawn, hs]⟩
  rw [hostReadAt_regAt (r := .status) rfl, readRegister_status_of_exec hs]
  rfl

/-- Settles O27: exact registers, STATUS, unspecified registers, IBUF, and offsets of nothing. -/
theorem busyReadsAreExactOrDrawn : Obligations.BusyReadsAreExactOrDrawn := by
  intro s hs
  have exactly : ∀ p ∈ exactRegisters.map (fun q => (q.1, readReg q.2 s)), hostReadAt p.1 8 s = s.give p.2 :=
    List.forall_mem_map.2 fun q hq => by
      obtain ⟨hr, hstatus, hexact⟩ := regAt_of_mem_exactRegisters q hq
      rw [hostReadAt_regAt hr, readRegister_of_exact hstatus hexact]
  have drawn : ∀ off ∈ unspecifiedRegisters.map Prod.fst,
      ∃ v : Word, hostReadAt off 8 s = { s with returned := v :: s.returned, draws := s.draws + 1 } :=
    List.forall_mem_map.2 fun q hq => by
      obtain ⟨hr, hunspecified⟩ := regAt_of_mem_unspecifiedRegisters q hq
      exact ⟨_, (hostReadAt_regAt hr s).trans (readRegister_of_unspecified hunspecified hs)⟩
  exact ⟨exactly, hostReadAt_status_of_exec hs, drawn, fun _ _ => ibufReadGives_of_legal,
    fun _ _ hoff haligned => (access_inert haligned hoff 0).2⟩

end Sys2Proof.Machine
